-- ==== Sys2Proof/Word.lean ====
section
/-!
DEFINITION. The word types of the TV6400 model. Multi-byte fields are little-endian with bit 0 the least significant bit of byte 0 (R7).
-/
namespace Sys2Proof

/-- A byte of host, tile, local, AON or flash memory. -/
abbrev Byte := BitVec 8
/-- A 16-bit status code, CRC-16, mantissa or code. -/
abbrev W16 := BitVec 16
/-- A 32-bit register or handle. -/
abbrev W32 := BitVec 32
/-- A general register of a stream core, or a course header. -/
abbrev W64 := BitVec 64
/-- A wide register of a stream core, or a queue item. -/
abbrev W128 := BitVec 128

end Sys2Proof
end

