-- ==== Sys2Proof/Syntax.lean ====
section
/-!
DEFINITION. The commands of the TV6400: one constructor of `Instr` for each row of the spec's table of operations and
events (opcode_table.json), with the operands that come from outside the block. What the outside supplies
(ADC samples, bytes from the host, ring frames, levels of pins, an engine's choice among its accepted commands) is an operand; what the spec gives the block to hold is read from the state. A command to an engine names an accepted
command by its place in that engine's list, oldest first.
-/
namespace Sys2Proof

/-- A stream core (R276). -/
abbrev CoreId := Fin 16
/-- A read, write or servo channel and head position (R8). -/
abbrev Chan := Fin 64
/-- A channel group (R8). -/
abbrev Group := Fin 16
/-- A hardware queue (R268). -/
abbrev QueueId := Fin 512
/-- A PCIe function (R373) or a queue pair of one (R374). -/
abbrev FnId := Fin 16
/-- A 5-bit register field of a Laruf word (R283). -/
abbrev Rf := BitVec 5

/-- The sources of an alarm (R362). -/
inductive AlarmSource where
  | voltage | clock | temperature | tamper | secureViolation
  deriving DecidableEq, Repr

/-- How a host memory read fails (R382). -/
inductive ReadError where
  | unsupported | abort | timeout
  deriving DecidableEq, Repr

/-- What a host memory read returned to FETCH (R382). -/
inductive HostRead where
  /-- the bytes of each TLP, and whether it was poisoned -/
  | data (tlps : List (List Byte × Bool))
  /-- Unsupported Request, Completer Abort or a timeout -/
  | error (e : ReadError)
  deriving DecidableEq, Repr

/-- The ring port of a frame (R388). -/
inductive Port where
  | east | west
  deriving DecidableEq, Repr

/-- A ring frame as it arrives (R390): link word, 24-byte header, payload, and the CRC-32C field; or a stomped frame. -/
structure RingFrame where
  link : W64
  header : List Byte
  payload : List Byte
  crc : W32
  stomped : Bool
  deriving DecidableEq, Repr

/-- What an image of the program set picks for the transaction of R337 that commits a group: the core that commits it, the tile
address of the seal record's buffer, and the queues of HOSTD and of the LEAK_COMMITs' completions. -/
structure CommitPlan where
  core : CoreId
  record : W64
  hostQ : QueueId
  leakQ : QueueId
  deriving DecidableEq, Repr

/-- A work item of the standard program set (R377, R384): function, queue pair, and its 64 bytes; `data`: the bytes the host holds at
its data address; `tape`: for READ_RECORD the unit stream that the tape gives from the header of a unit on, the rest of that
unit's yealm and then whole data yealms, one list each; and `bodies`: what compression lanes make of the bundles formed meanwhile,
in order (R239). -/
structure WorkItem where
  fn : FnId
  pair : FnId
  bytes : List Byte
  data : List Byte := []
  tape : List (List Byte) := []
  bodies : List (List Byte) := []
  deriving DecidableEq, Repr

/-- A course that the search of the tape found: physical channel, wrap, LPOS of the batten opening its segment, data bits of the
segment before it, header, whether its codeword passes C1, and its data bytes. -/
structure FoundCourse where
  chan : Nat
  wrap : Nat
  lpos : Nat
  bit : Nat
  hdr : W64
  c1 : Bool
  data : List Byte
  deriving DecidableEq, Repr

/-- A part of an index set as read: yealm number, wrap and LPOS at which it begins on channel 0 of its first written quarter, and its
data bytes (R70, R71). -/
structure FoundIndex where
  yealm : Nat
  wrap : Nat
  lpos : Nat
  data : List Byte
  deriving DecidableEq, Repr

/-- A resync of a team (R427): the team blocks (R426) that the leader has gathered, of the last seals of the other members it
reaches. -/
structure Resync where
  blocks : List (List Byte)
  deriving DecidableEq, Repr

/-- What a mount finds on the cartridge (R65 to R71): the locator in the cartridge memory, the first 512 data bytes of the format
yealm, the seal courses in order of travel, the stretches of data zone in which no active channel holds a course (wrap, first
segment in the direction of travel, segments), and the index yealms; `resume`: an earlier seal that the host names (R67), or a
resync. -/
structure TapeFind where
  locator : List Byte
  format : List Byte
  seals : List FoundCourse
  gaps : List (Nat × Nat × Nat)
  index : List FoundIndex
  resume : Option Nat
  resync : Option Resync
  deriving DecidableEq, Repr

/-- The inputs that MOT takes at a tick from outside the block (R198): the signed rates at which the hall sensors of the supply and of
the take-up reel change, in 1/65,536 changes per second, positive with the reel turning forward, and whether the tape stands in the
data zone (R203). -/
structure TickIn where
  hallSupply : Int
  hallTakeup : Int
  inDataZone : Bool
  deriving DecidableEq, Repr

/-- The outcome of the work of a boot step that only the hardware knows (R459). -/
structure StepResult where
  /-- S4: SPEED and WIDTH trained -/
  speed : Nat := 0
  width : Nat := 0
  /-- S8: a cartridge is loaded, and what the search of its tape found, as of MOUNT -/
  cartridge : Bool := false
  mount : TapeFind := ⟨[], [], [], [], [], none, none⟩
  /-- the journal mirror in the boot flash took the record (R460) -/
  flashOk : Bool := true
  deriving DecidableEq, Repr

/-- A boot step (R459). -/
abbrev StepId := Fin 9

/-- A state entered by a sleep (R434). -/
inductive PState where
  | run | idle | doze | nap | off
  deriving DecidableEq, Repr

/-- The answer of a sensor to one command of the sampler's list (R454). -/
structure SensorReply where
  nak : Bool
  bytes : List Byte
  deriving DecidableEq, Repr

/-- The commands of the block. Constructor names follow the mnemonics of the table. -/
inductive Instr where
  -- registers and clocks
  | registerWrite (fn : FnId) (bar : Nat) (off : Nat) (len : Nat) (val : W32) (hwSet : W32)
  | registerReadClear (fn : FnId) (bar : Nat) (off len : Nat) (hwEvent : W32)
  -- read channel
  | resumeMarkSearch (c : Chan) (lpos : Nat) (adc : List Byte)
  | zoneCapture (c : Chan)
  | battenGuard (c : Chan) (adc : List Byte)
  | miniPreambleRestore (c : Chan) (adc : List Byte)
  | timingLockLoss (c : Chan) (adc : List Byte)
  | longDefectEnd (c : Chan) (adc : List Byte)
  | courseFrame (c : Chan) (adc : List Byte)
  | c1Decode (c : Chan) (gaps : List (List Byte))
  | yealmDecode (y : Nat)
  | c2Retry (y : Nat)
  | channelEnable (c : Chan)
  | channelDisable (c : Chan)
  | handoffChannelSwitch (c : Chan) (lpos : Nat)
  | calGo (grp : Group)
  | calibrationDone (grp : Group) (ok : Bool)
  -- write channel
  | gateOn (c : Chan) (ago : Fin 4)
  | gateOff (c : Chan)
  | sidebandReply (link : Fin 8) (reply : Option Byte)
  | sidebandStatusRead (link : Fin 8) (reply : List Byte)
  | courseVerify (c : Chan) (framed : Bool)
  | shockInput (low : Bool)
  | inhSw (v : Bool)
  -- servo, motion and pace
  | battenDecode (c : Chan)
  | headPositionSample (phase : Fin 8)
  | motTick (inp : TickIn)
  | motDiFrame (line : Fin 2) (frame : W32)
  | loopClose (bits : BitVec 5)
  | loopOpen (bits : BitVec 5)
  | motWrap (w : BitVec 9)
  | accRead (replies : List SensorReply)
  -- compression engine
  | compress (lane : Fin 8) (body : List Byte)
  | decompress (lane : Fin 8)
  | ctxInit (lane : Fin 8)
  | ctxSave (lane : Fin 8)
  -- tiles, pools, queues
  | queueEnable (q : QueueId)
  | queueDisable (q : QueueId)
  -- Laruf: register format
  | add (n : CoreId) (rd ra rb : Rf)
  | sub (n : CoreId) (rd ra rb : Rf)
  | and (n : CoreId) (rd ra rb : Rf)
  | or (n : CoreId) (rd ra rb : Rf)
  | xor (n : CoreId) (rd ra rb : Rf)
  | shl (n : CoreId) (rd ra rb : Rf)
  | shr (n : CoreId) (rd ra rb : Rf)
  | sar (n : CoreId) (rd ra rb : Rf)
  | ror (n : CoreId) (rd ra rb : Rf)
  | mul (n : CoreId) (rd ra rb : Rf)
  | mulhu (n : CoreId) (rd ra rb : Rf)
  | cmp (n : CoreId) (rd ra rb : Rf)
  | slt (n : CoreId) (rd ra rb : Rf)
  | sltu (n : CoreId) (rd ra rb : Rf)
  | min (n : CoreId) (rd ra rb : Rf)
  | max (n : CoreId) (rd ra rb : Rf)
  | minu (n : CoreId) (rd ra rb : Rf)
  | maxu (n : CoreId) (rd ra rb : Rf)
  | clz (n : CoreId) (rd ra rb : Rf)
  | popc (n : CoreId) (rd ra rb : Rf)
  | bswap (n : CoreId) (rd ra rb : Rf)
  | sel (n : CoreId) (rd ra rb : Rf)
  -- Laruf: immediate format
  | addi (n : CoreId) (rd ra : Rf) (sub : BitVec 2) (imm : BitVec 14)
  | andi (n : CoreId) (rd ra : Rf) (sub : BitVec 2) (imm : BitVec 14)
  | ori (n : CoreId) (rd ra : Rf) (sub : BitVec 2) (imm : BitVec 14)
  | xori (n : CoreId) (rd ra : Rf) (sub : BitVec 2) (imm : BitVec 14)
  | shli (n : CoreId) (rd ra : Rf) (imm : BitVec 14)
  | shri (n : CoreId) (rd ra : Rf) (imm : BitVec 14)
  | sari (n : CoreId) (rd ra : Rf) (imm : BitVec 14)
  | rori (n : CoreId) (rd ra : Rf) (imm : BitVec 14)
  | movi (n : CoreId) (rd ra : Rf) (imm : BitVec 14)
  | movs (n : CoreId) (rd ra : Rf) (imm : BitVec 14)
  | cmpi (n : CoreId) (rd ra : Rf) (sub : BitVec 2) (imm : BitVec 14)
  -- Laruf: memory format
  | ldl (n : CoreId) (rt ra : Rf) (size : BitVec 3) (off : BitVec 13)
  | stl (n : CoreId) (rt ra : Rf) (size : BitVec 3) (off : BitVec 13)
  | ldt (n : CoreId) (rt ra : Rf) (size : BitVec 3) (off : BitVec 13)
  | tileLoadReturn (n : CoreId)
  | stt (n : CoreId) (rt ra : Rf) (size : BitVec 3) (off : BitVec 13)
  -- Laruf: CRC, wide, AES assist (fnLow is the function's width code for CRC32C)
  | crc32c (n : CoreId) (rd ra rb : Rf) (width : BitVec 2)
  | wmov (n : CoreId) (rd ra rb : Rf)
  | wxor (n : CoreId) (rd ra rb : Rf)
  | wand (n : CoreId) (rd ra rb : Rf)
  | wor (n : CoreId) (rd ra rb : Rf)
  | wfrom (n : CoreId) (rd ra rb : Rf)
  | wlo (n : CoreId) (rd ra rb : Rf)
  | whi (n : CoreId) (rd ra rb : Rf)
  | clmulLl (n : CoreId) (rd ra rb : Rf)
  | clmulHl (n : CoreId) (rd ra rb : Rf)
  | clmulLh (n : CoreId) (rd ra rb : Rf)
  | clmulHh (n : CoreId) (rd ra rb : Rf)
  | ghred (n : CoreId) (rd ra rb : Rf)
  | xtsmul (n : CoreId) (rd ra rb : Rf)
  | inc32 (n : CoreId) (rd ra rb : Rf)
  | brevb (n : CoreId) (rd ra rb : Rf)
  | tageq (n : CoreId) (rd ra rb : Rf)
  | bswapw (n : CoreId) (rd ra rb : Rf)
  -- Laruf: branch format
  | br (n : CoreId) (ra : Rf) (x : Bool) (off : BitVec 20)
  | bz (n : CoreId) (ra : Rf) (x : Bool) (off : BitVec 20)
  | bnz (n : CoreId) (ra : Rf) (x : Bool) (off : BitVec 20)
  | bc (n : CoreId) (cond : Rf) (x : Bool) (off : BitVec 20)
  | loop (n : CoreId) (ra : Rf) (x : Bool) (off : BitVec 20)
  | jr (n : CoreId) (rd ra rb : Rf)
  -- Laruf: queues, pools, issue, events, transactions, system
  | qput (n : CoreId) (rd ra rb : Rf)
  | qget (n : CoreId) (rd ra rb : Rf)
  | qcnt (n : CoreId) (rd ra rb : Rf)
  | balloc (n : CoreId) (rd ra rb : Rf)
  | bfree (n : CoreId) (rd ra rb : Rf)
  | issue (n : CoreId) (rd ra : Rf) (target : Rf) (mode : BitVec 2) (cq : BitVec 9)
  | issueAccept (n : CoreId)
  | wait (n : CoreId) (rd ra rb : Rf)
  | waitReturn (n : CoreId) (timeout : Bool)
  | timerEvent (n : CoreId)
  | pwrhint (n : CoreId) (rd ra : Rf) (sub : BitVec 2) (imm : BitVec 14)
  | txb (n : CoreId) (rd ra rb : Rf)
  | txc (n : CoreId) (rd ra rb : Rf)
  | txCommit (n : CoreId)
  | txCapacityTimeout (n : CoreId)
  | txa (n : CoreId) (rd ra rb : Rf)
  | tset (n : CoreId) (rd ra rb : Rf)
  | nop (n : CoreId) (rd ra rb : Rf)
  | halt (n : CoreId) (rd ra rb : Rf)
  | mfs (n : CoreId) (rd ra rb : Rf)
  | mts (n : CoreId) (rd ra rb : Rf)
  | sig (n : CoreId) (rd ra rb : Rf)
  | trap (n : CoreId) (rd ra rb : Rf)
  | eret (n : CoreId) (rd ra rb : Rf)
  | pchk (n : CoreId) (rd ra rb : Rf)
  | pchkw (n : CoreId) (rd ra rb : Rf)
  -- starting and loading cores
  | coreStart (n : CoreId)
  | coreStopRequest (n : CoreId)
  | coreGraceExpiry (n : CoreId)
  | coreForceStop (n : CoreId)
  | coreSignalWrite (n : CoreId)
  | ldmWindowWrite (off : BitVec 16) (val : W32)
  -- engine completions and commands
  | completionPut (i : Nat)
  | encode (i : Nat)
  | write (i : Nat)
  | seal (i : Nat)
  | read (i : Nat)
  | fetch (i : Nat) (r : HostRead)
  | deliver (i : Nat)
  | complete (i : Nat)
  | msixMessage (fn : FnId) (pair : FnId)
  | send (p : Port) (i : Nat)
  | sendReceiptTimeout (msg : W16)
  | postRx (p : Port) (i : Nat)
  | keyImport (i : Nat)
  | erase (i : Nat)
  | attest (i : Nat)
  | copy (i : Nat)
  | fill (i : Nat)
  | check (i : Nat)
  | encrypt (i : Nat)
  | decrypt (i : Nat)
  | keyAlarm (src : AlarmSource)
  | secure (holding : List AlarmSource)
  | alarmEnableWrite (bits : BitVec 4) (holding : List AlarmSource)
  -- host port
  | sqDoorbell (fn pair : FnId) (v : W16)
  | cqDoorbell (fn pair : FnId) (v : W16)
  | workBatchFetch (fn pair : FnId) (items : List (List Byte))
  | queuePairEnable (fn pair : FnId)
  | functionLevelReset (fn : FnId)
  | bar2Access (addr : Nat) (len : Nat) (wr : Option (List Byte))
  | pcieLinkUp (speed : Nat) (width : Nat)
  | identify (w : WorkItem)
  | openStream (w : WorkItem)
  | closeStream (w : WorkItem)
  | commit (w : WorkItem) (plans : List CommitPlan)
  | mount (w : WorkItem) (t : TapeFind)
  | unload (w : WorkItem)
  | locate (w : WorkItem)
  | writeRecord (w : WorkItem)
  | importKey (w : WorkItem)
  | readRecord (w : WorkItem)
  | readLog (w : WorkItem)
  -- ring and umpire
  | ringFrameReceive (p : Port) (f : RingFrame)
  | ringResendTimeout (p : Port)
  | ackBlock (p : Port) (rx : Option (BitVec 12 × Bool))
  | receipt (f : RingFrame)
  | ringLinkDown (p : Port)
  | foldEdge (p : Port)
  | park (p : Port)
  | hello (p : Port) (id : W16) (serial : W64)
  | join (p : Port) (f : RingFrame)
  | portTrain (p : Port)
  | portPark (p : Port)
  | serveReceive (p : Port) (id : W16) (hops : Byte) (crc : Byte)
  | faultReportReceive (report : List Byte)
  | umpWindowClose (origin code : W16)
  -- teams
  | stripe (i : Nat)
  | rebuildRead (i : Nat)
  | leakCommit (i : Nat)
  | leakSend (i : Nat)
  | parity (f : RingFrame)
  | ready (f : RingFrame)
  | teamCopyFrame (f : RingFrame)
  | done (f : RingFrame)
  | abort (f : RingFrame)
  | rebuild (f : RingFrame)
  | leak (f : RingFrame)
  | clean (f : RingFrame)
  | mapcopy (f : RingFrame)
  | teamRecordChange (slot : Fin 2)
  | teamSlotActivate (slot : Fin 2)
  -- power
  | idleTimerExpiry (t : Fin 3)
  | sleepRequest (target : BitVec 3)
  | wake (sources : BitVec 10)
  | napExit (savedOk imageOk : Bool)
  | sample (temp : Int) (replies : List SensorReply) (skipped : Nat)
  | aonWindowWrite (off : BitVec 16) (val : W32)
  -- boot and supplies
  | bootStepTimeout (n : StepId)
  | stickyClear (bits : BitVec 9)
  | flashErase (ok : Bool)
  | flashProgram (ok : Bool)
  | timingLock (c : Chan) (adc : List Byte)
  | bootStepDone (n : StepId) (r : StepResult)
  -- rows without operands, of every family
  | aonXtalChangeover
  | aonXtalLost
  | yealmStart
  | sealBegin
  | uf1LocatorWrite
  | handoff
  | sidebandDirection
  | wrapEndBlock
  | sbGo
  | sealVerify
  | inhClr
  | inhibitTimeout
  | wrcRunStop
  | motOverrun
  | motRunStart
  | motRunStop
  | paceUpdate
  | backhitchDecelerate
  | backhitchResume
  | turnaround
  | cmpRunStart
  | cmpRunStop
  | scrubVisit
  | poolRunStart
  | poolRunStop
  | programLoad
  | programLoadDone
  | cipLockTake
  | cipLockIdle
  | cipLockFree
  | cipRunStop
  | perstN
  | hstRunStop
  | serveSend
  | teamRunStart
  | teamRunStop
  | dozeEntry
  | napEntry
  | offEntry
  | sleepCancel
  | sleepRequestTimeout
  | dozeExit
  | qdrDrop
  | aon1v8Overcurrent
  | watchdogExpiry
  | wdogKick
  | flashRead
  | resetN
  | vinPowerOn
  | vinLoss
  | vioLoss
  | perstNRising
  | vioGood
  | pcieLinkDown
  deriving DecidableEq, Repr

end Sys2Proof
end

