-- ==== Sys2Proof/Decode.lean ====
section
/-!
DEFINITION. Words of the table of operations and events, and words of instruction memory. The spec gives no row of that table
any bits (every row's list of fields is empty): the commands arrive as events at the block's ports, not as words. The
instruction words of the stream cores (R283, R284) are decoded and encoded here beside it.
-/
namespace Sys2Proof

/-- The command a word spells by the table's bits: none, since no row has bits. -/
def decodeTableWord (_nbits _w : Nat) : Option Instr := none

/-! ## Instruction formats (R283) -/

/-- Opcode and two register fields over the low 16 bits. -/
def Laruf.word (op : Nat) (a b : Rf) (low : BitVec 16) : W32 := BitVec.ofNat 6 op ++ a ++ b ++ low
/-- Format A. -/
def Laruf.fmtA (op fn : Nat) (rd ra rb : Rf) : W32 := Laruf.word op rd ra (rb ++ BitVec.ofNat 11 fn)
/-- Format I. -/
def Laruf.fmtI (op : Nat) (rd ra : Rf) (sub : BitVec 2) (imm : BitVec 14) : W32 := Laruf.word op rd ra (sub ++ imm)
/-- Format M. -/
def Laruf.fmtM (op : Nat) (rt ra : Rf) (size : BitVec 3) (off : BitVec 13) : W32 := Laruf.word op rt ra (size ++ off)
/-- Format B. -/
def Laruf.fmtB (op : Nat) (ra : Rf) (x : Bool) (off : BitVec 20) : W32 :=
  BitVec.ofNat 6 op ++ ra ++ BitVec.ofBool x ++ off
/-- Format X. -/
def Laruf.fmtX (op : Nat) (rd ra target : Rf) (mode : BitVec 2) (cq : BitVec 9) : W32 :=
  Laruf.word op rd ra (target ++ mode ++ cq)

/-! ## Decoding (R284, R285, R293 to R298, R301 to R303, R306) -/

/-- Functions of opcode 0x00, ALU (R285); any other function is none. -/
def Laruf.alu (n : CoreId) (rd ra rb : Rf) (fn : Nat) : Option Instr :=
  match fn with
  | 0x000 => some (.add n rd ra rb)
  | 0x001 => some (.sub n rd ra rb)
  | 0x002 => some (.and n rd ra rb)
  | 0x003 => some (.or n rd ra rb)
  | 0x004 => some (.xor n rd ra rb)
  | 0x005 => some (.shl n rd ra rb)
  | 0x006 => some (.shr n rd ra rb)
  | 0x007 => some (.sar n rd ra rb)
  | 0x008 => some (.ror n rd ra rb)
  | 0x009 => some (.mul n rd ra rb)
  | 0x00A => some (.mulhu n rd ra rb)
  | 0x00B => some (.cmp n rd ra rb)
  | 0x00C => some (.slt n rd ra rb)
  | 0x00D => some (.sltu n rd ra rb)
  | 0x00E => some (.min n rd ra rb)
  | 0x00F => some (.max n rd ra rb)
  | 0x010 => some (.minu n rd ra rb)
  | 0x011 => some (.maxu n rd ra rb)
  | 0x012 => some (.clz n rd ra rb)
  | 0x013 => some (.popc n rd ra rb)
  | 0x014 => some (.bswap n rd ra rb)
  | 0x015 => some (.sel n rd ra rb)
  | _ => none

/-- Functions of opcode 0x0D, wide and CLMUL (R294); any other function is none. -/
def Laruf.wide (n : CoreId) (rd ra rb : Rf) (fn : Nat) : Option Instr :=
  match fn with
  | 0x000 => some (.wmov n rd ra rb)
  | 0x001 => some (.wxor n rd ra rb)
  | 0x002 => some (.wand n rd ra rb)
  | 0x003 => some (.wor n rd ra rb)
  | 0x004 => some (.wfrom n rd ra rb)
  | 0x005 => some (.wlo n rd ra rb)
  | 0x006 => some (.whi n rd ra rb)
  | 0x008 => some (.clmulLl n rd ra rb)
  | 0x009 => some (.clmulHl n rd ra rb)
  | 0x00A => some (.clmulLh n rd ra rb)
  | 0x00B => some (.clmulHh n rd ra rb)
  | _ => none

/-- Functions of opcode 0x0E, AES assist (R295); any other function is none. -/
def Laruf.assist (n : CoreId) (rd ra rb : Rf) (fn : Nat) : Option Instr :=
  match fn with
  | 0x000 => some (.ghred n rd ra rb)
  | 0x001 => some (.xtsmul n rd ra rb)
  | 0x002 => some (.inc32 n rd ra rb)
  | 0x003 => some (.brevb n rd ra rb)
  | 0x004 => some (.tageq n rd ra rb)
  | 0x005 => some (.bswapw n rd ra rb)
  | _ => none

/-- Functions of opcode 0x15, JR (R284); any other function is none. -/
def Laruf.jump (n : CoreId) (rd ra rb : Rf) (fn : Nat) : Option Instr :=
  match fn with
  | 0x000 => some (.jr n rd ra rb)
  | _ => none

/-- Functions of opcode 0x18, queue (R296); any other function is none. -/
def Laruf.queue (n : CoreId) (rd ra rb : Rf) (fn : Nat) : Option Instr :=
  match fn with
  | 0x000 => some (.qput n rd ra rb)
  | 0x001 => some (.qget n rd ra rb)
  | 0x002 => some (.qcnt n rd ra rb)
  | _ => none

/-- Functions of opcode 0x19, pool (R297); any other function is none. -/
def Laruf.pool (n : CoreId) (rd ra rb : Rf) (fn : Nat) : Option Instr :=
  match fn with
  | 0x000 => some (.balloc n rd ra rb)
  | 0x001 => some (.bfree n rd ra rb)
  | _ => none

/-- Functions of opcode 0x1A, WAIT (R301); any other function is none. -/
def Laruf.waits (n : CoreId) (rd ra rb : Rf) (fn : Nat) : Option Instr :=
  match fn with
  | 0x000 => some (.wait n rd ra rb)
  | _ => none

/-- Functions of opcode 0x1B, transaction (R303); any other function is none. -/
def Laruf.trans (n : CoreId) (rd ra rb : Rf) (fn : Nat) : Option Instr :=
  match fn with
  | 0x000 => some (.txb n rd ra rb)
  | 0x001 => some (.txc n rd ra rb)
  | 0x002 => some (.txa n rd ra rb)
  | 0x003 => some (.tset n rd ra rb)
  | _ => none

/-- Functions of opcode 0x1F, system (R306); any other function is none. -/
def Laruf.system (n : CoreId) (rd ra rb : Rf) (fn : Nat) : Option Instr :=
  match fn with
  | 0x000 => some (.nop n rd ra rb)
  | 0x001 => some (.halt n rd ra rb)
  | 0x002 => some (.mfs n rd ra rb)
  | 0x003 => some (.mts n rd ra rb)
  | 0x004 => some (.sig n rd ra rb)
  | 0x005 => some (.trap n rd ra rb)
  | 0x006 => some (.eret n rd ra rb)
  | 0x007 => some (.pchk n rd ra rb)
  | 0x008 => some (.pchkw n rd ra rb)
  | _ => none

/-- Opcode 0x05 (R284): the shift that the sub field names; imm14 is carried whole. -/
def Laruf.shift (n : CoreId) (rd ra : Rf) (sub : BitVec 2) (imm : BitVec 14) : Instr :=
  match sub.toNat with
  | 0 => .shli n rd ra imm
  | 1 => .shri n rd ra imm
  | 2 => .sari n rd ra imm
  | _ => .rori n rd ra imm

/-- Opcode 0x06 (R284): MOVI and MOVS; any other sub is none. -/
def Laruf.move (n : CoreId) (rd ra : Rf) (sub : BitVec 2) (imm : BitVec 14) : Option Instr :=
  match sub.toNat with
  | 0 => some (.movi n rd ra imm)
  | 1 => some (.movs n rd ra imm)
  | _ => none

/-- The instruction of core n that a word of its instruction memory spells (R283, R284), with every field as the word has it:
what the spec makes ILLEGAL in a field is the instruction's own matter. A word of no listed opcode or function is none. -/
def larufDecode (n : CoreId) (w : W32) : Option Instr :=
  let a : Rf := w.extractLsb' 21 5
  let b : Rf := w.extractLsb' 16 5
  let c : Rf := w.extractLsb' 11 5
  let fn := (w.extractLsb' 0 11).toNat
  let sub := w.extractLsb' 14 2
  let imm := w.extractLsb' 0 14
  let size := w.extractLsb' 13 3
  let off := w.extractLsb' 0 13
  let x := w.getLsbD 20
  let off20 := w.extractLsb' 0 20
  match (w.extractLsb' 26 6).toNat with
  | 0x00 => Laruf.alu n a b c fn
  | 0x01 => some (.addi n a b sub imm)
  | 0x02 => some (.andi n a b sub imm)
  | 0x03 => some (.ori n a b sub imm)
  | 0x04 => some (.xori n a b sub imm)
  | 0x05 => some (Laruf.shift n a b sub imm)
  | 0x06 => Laruf.move n a b sub imm
  | 0x07 => some (.cmpi n a b sub imm)
  | 0x08 => some (.ldl n a b size off)
  | 0x09 => some (.stl n a b size off)
  | 0x0A => some (.ldt n a b size off)
  | 0x0B => some (.stt n a b size off)
  | 0x0C => if fn < 4 then some (.crc32c n a b c (BitVec.ofNat 2 fn)) else none
  | 0x0D => Laruf.wide n a b c fn
  | 0x0E => Laruf.assist n a b c fn
  | 0x10 => some (.br n a x off20)
  | 0x11 => some (.bz n a x off20)
  | 0x12 => some (.bnz n a x off20)
  | 0x13 => some (.bc n a x off20)
  | 0x14 => some (.loop n a x off20)
  | 0x15 => Laruf.jump n a b c fn
  | 0x18 => Laruf.queue n a b c fn
  | 0x19 => Laruf.pool n a b c fn
  | 0x1A => Laruf.waits n a b c fn
  | 0x1B => Laruf.trans n a b c fn
  | 0x1C => some (.issue n a b c (w.extractLsb' 9 2) (w.extractLsb' 0 9))
  | 0x1E => some (.pwrhint n a b sub imm)
  | 0x1F => Laruf.system n a b c fn
  | _ => none

/-! ## Encoding -/

/-- The core and the word of a stream-core instruction (R283, R284); none for every other command. -/
def larufEncode (i : Instr) : Option (CoreId × W32) :=
  match i with
  | .add n rd ra rb => some (n, Laruf.fmtA 0x00 0x000 rd ra rb)
  | .sub n rd ra rb => some (n, Laruf.fmtA 0x00 0x001 rd ra rb)
  | .and n rd ra rb => some (n, Laruf.fmtA 0x00 0x002 rd ra rb)
  | .or n rd ra rb => some (n, Laruf.fmtA 0x00 0x003 rd ra rb)
  | .xor n rd ra rb => some (n, Laruf.fmtA 0x00 0x004 rd ra rb)
  | .shl n rd ra rb => some (n, Laruf.fmtA 0x00 0x005 rd ra rb)
  | .shr n rd ra rb => some (n, Laruf.fmtA 0x00 0x006 rd ra rb)
  | .sar n rd ra rb => some (n, Laruf.fmtA 0x00 0x007 rd ra rb)
  | .ror n rd ra rb => some (n, Laruf.fmtA 0x00 0x008 rd ra rb)
  | .mul n rd ra rb => some (n, Laruf.fmtA 0x00 0x009 rd ra rb)
  | .mulhu n rd ra rb => some (n, Laruf.fmtA 0x00 0x00A rd ra rb)
  | .cmp n rd ra rb => some (n, Laruf.fmtA 0x00 0x00B rd ra rb)
  | .slt n rd ra rb => some (n, Laruf.fmtA 0x00 0x00C rd ra rb)
  | .sltu n rd ra rb => some (n, Laruf.fmtA 0x00 0x00D rd ra rb)
  | .min n rd ra rb => some (n, Laruf.fmtA 0x00 0x00E rd ra rb)
  | .max n rd ra rb => some (n, Laruf.fmtA 0x00 0x00F rd ra rb)
  | .minu n rd ra rb => some (n, Laruf.fmtA 0x00 0x010 rd ra rb)
  | .maxu n rd ra rb => some (n, Laruf.fmtA 0x00 0x011 rd ra rb)
  | .clz n rd ra rb => some (n, Laruf.fmtA 0x00 0x012 rd ra rb)
  | .popc n rd ra rb => some (n, Laruf.fmtA 0x00 0x013 rd ra rb)
  | .bswap n rd ra rb => some (n, Laruf.fmtA 0x00 0x014 rd ra rb)
  | .sel n rd ra rb => some (n, Laruf.fmtA 0x00 0x015 rd ra rb)
  | .wmov n rd ra rb => some (n, Laruf.fmtA 0x0D 0x000 rd ra rb)
  | .wxor n rd ra rb => some (n, Laruf.fmtA 0x0D 0x001 rd ra rb)
  | .wand n rd ra rb => some (n, Laruf.fmtA 0x0D 0x002 rd ra rb)
  | .wor n rd ra rb => some (n, Laruf.fmtA 0x0D 0x003 rd ra rb)
  | .wfrom n rd ra rb => some (n, Laruf.fmtA 0x0D 0x004 rd ra rb)
  | .wlo n rd ra rb => some (n, Laruf.fmtA 0x0D 0x005 rd ra rb)
  | .whi n rd ra rb => some (n, Laruf.fmtA 0x0D 0x006 rd ra rb)
  | .clmulLl n rd ra rb => some (n, Laruf.fmtA 0x0D 0x008 rd ra rb)
  | .clmulHl n rd ra rb => some (n, Laruf.fmtA 0x0D 0x009 rd ra rb)
  | .clmulLh n rd ra rb => some (n, Laruf.fmtA 0x0D 0x00A rd ra rb)
  | .clmulHh n rd ra rb => some (n, Laruf.fmtA 0x0D 0x00B rd ra rb)
  | .ghred n rd ra rb => some (n, Laruf.fmtA 0x0E 0x000 rd ra rb)
  | .xtsmul n rd ra rb => some (n, Laruf.fmtA 0x0E 0x001 rd ra rb)
  | .inc32 n rd ra rb => some (n, Laruf.fmtA 0x0E 0x002 rd ra rb)
  | .brevb n rd ra rb => some (n, Laruf.fmtA 0x0E 0x003 rd ra rb)
  | .tageq n rd ra rb => some (n, Laruf.fmtA 0x0E 0x004 rd ra rb)
  | .bswapw n rd ra rb => some (n, Laruf.fmtA 0x0E 0x005 rd ra rb)
  | .jr n rd ra rb => some (n, Laruf.fmtA 0x15 0x000 rd ra rb)
  | .qput n rd ra rb => some (n, Laruf.fmtA 0x18 0x000 rd ra rb)
  | .qget n rd ra rb => some (n, Laruf.fmtA 0x18 0x001 rd ra rb)
  | .qcnt n rd ra rb => some (n, Laruf.fmtA 0x18 0x002 rd ra rb)
  | .balloc n rd ra rb => some (n, Laruf.fmtA 0x19 0x000 rd ra rb)
  | .bfree n rd ra rb => some (n, Laruf.fmtA 0x19 0x001 rd ra rb)
  | .wait n rd ra rb => some (n, Laruf.fmtA 0x1A 0x000 rd ra rb)
  | .txb n rd ra rb => some (n, Laruf.fmtA 0x1B 0x000 rd ra rb)
  | .txc n rd ra rb => some (n, Laruf.fmtA 0x1B 0x001 rd ra rb)
  | .txa n rd ra rb => some (n, Laruf.fmtA 0x1B 0x002 rd ra rb)
  | .tset n rd ra rb => some (n, Laruf.fmtA 0x1B 0x003 rd ra rb)
  | .nop n rd ra rb => some (n, Laruf.fmtA 0x1F 0x000 rd ra rb)
  | .halt n rd ra rb => some (n, Laruf.fmtA 0x1F 0x001 rd ra rb)
  | .mfs n rd ra rb => some (n, Laruf.fmtA 0x1F 0x002 rd ra rb)
  | .mts n rd ra rb => some (n, Laruf.fmtA 0x1F 0x003 rd ra rb)
  | .sig n rd ra rb => some (n, Laruf.fmtA 0x1F 0x004 rd ra rb)
  | .trap n rd ra rb => some (n, Laruf.fmtA 0x1F 0x005 rd ra rb)
  | .eret n rd ra rb => some (n, Laruf.fmtA 0x1F 0x006 rd ra rb)
  | .pchk n rd ra rb => some (n, Laruf.fmtA 0x1F 0x007 rd ra rb)
  | .pchkw n rd ra rb => some (n, Laruf.fmtA 0x1F 0x008 rd ra rb)
  | .crc32c n rd ra rb width => some (n, Laruf.fmtA 0x0C width.toNat rd ra rb)
  | .addi n rd ra sub imm => some (n, Laruf.fmtI 0x01 rd ra sub imm)
  | .andi n rd ra sub imm => some (n, Laruf.fmtI 0x02 rd ra sub imm)
  | .ori n rd ra sub imm => some (n, Laruf.fmtI 0x03 rd ra sub imm)
  | .xori n rd ra sub imm => some (n, Laruf.fmtI 0x04 rd ra sub imm)
  | .cmpi n rd ra sub imm => some (n, Laruf.fmtI 0x07 rd ra sub imm)
  | .pwrhint n rd ra sub imm => some (n, Laruf.fmtI 0x1E rd ra sub imm)
  | .shli n rd ra imm => some (n, Laruf.fmtI 0x05 rd ra 0 imm)
  | .shri n rd ra imm => some (n, Laruf.fmtI 0x05 rd ra 1 imm)
  | .sari n rd ra imm => some (n, Laruf.fmtI 0x05 rd ra 2 imm)
  | .rori n rd ra imm => some (n, Laruf.fmtI 0x05 rd ra 3 imm)
  | .movi n rd ra imm => some (n, Laruf.fmtI 0x06 rd ra 0 imm)
  | .movs n rd ra imm => some (n, Laruf.fmtI 0x06 rd ra 1 imm)
  | .ldl n rt ra size off => some (n, Laruf.fmtM 0x08 rt ra size off)
  | .stl n rt ra size off => some (n, Laruf.fmtM 0x09 rt ra size off)
  | .ldt n rt ra size off => some (n, Laruf.fmtM 0x0A rt ra size off)
  | .stt n rt ra size off => some (n, Laruf.fmtM 0x0B rt ra size off)
  | .br n ra x off => some (n, Laruf.fmtB 0x10 ra x off)
  | .bz n ra x off => some (n, Laruf.fmtB 0x11 ra x off)
  | .bnz n ra x off => some (n, Laruf.fmtB 0x12 ra x off)
  | .bc n ra x off => some (n, Laruf.fmtB 0x13 ra x off)
  | .loop n ra x off => some (n, Laruf.fmtB 0x14 ra x off)
  | .issue n rd ra target mode cq => some (n, Laruf.fmtX 0x1C rd ra target mode cq)
  | _ => none

end Sys2Proof
end

