-- ==== Sys2Proof/Config.lean ====
section
/-!
DEFINITION. What an implementation fixes and what the spec leaves open: opaque constants, of which nothing can be computed or
proved. A statement holds whatever they are.
-/
namespace Sys2Proof

/-! ## Fused in manufacture -/

/-- GRADE of `BOOT_PART` (R474). -/
opaque Config.grade : BitVec 4
/-- SIREV of `BOOT_PART` (R474). -/
opaque Config.sirev : BitVec 8
/-- The part's 64-bit serial (`BOOT_SERL`, `BOOT_SERH`). -/
opaque Config.serial : W64
/-- The fused part of the security floor (`BOOT_FLOOR`). -/
opaque Config.fusedFloor : W32

/-- The Nolfetin boot signer's public key, held in ROM (R464). -/
opaque Config.romKey : List Byte
/-- The owner key hash fused for signer index 1 or 2 (R465). -/
opaque Config.ownerHash : Nat → List Byte
/-- The identity public key that the ROM derives from the fused seed (R469). -/
opaque Config.identityKey : List Byte
/-- The device unique key of slot 64 (R358). -/
opaque Config.duk : BitVec 256
/-- The keys of slots 66 to 71 (R358). -/
opaque Config.bootKey : Nat → BitVec 256

/-! ## Falcon-1024 (R313, R463, R470), which the spec names and does not define -/

/-- Whether a signature in padded format verifies over a message under a public key.
DESIGN CHOICE: log entry 82. -/
opaque Config.falconVerify : (key msg sig : List Byte) → Bool
/-- The signature of a message under the identity key, 1,280 bytes (R470).
DESIGN CHOICE: log entry 82. -/
opaque Config.falconSign : List Byte → List Byte

/-! ## Free values -/

/-- A free value of a 64-bit register or field; its argument is the state's counter, so each is a fresh one.
DESIGN CHOICE: log entry 20; DESIGN CHOICE: log entry 23. -/
opaque Config.freeW64 : Nat → W64
/-- A free byte. -/
opaque Config.freeByte : Nat → Byte
/-- A byte of a tape codeword that no code recovers (R109), by the draw and the byte's place in the yealm buffer.
DESIGN CHOICE: log entry 42. -/
opaque Config.freeSymbol : Nat → Nat → Byte
/-- How an exact tie of a rounding that no rule settles goes, by what is rounded: true rounds up.
DESIGN CHOICE: log entry 43. -/
opaque Config.roundTie : Int → Int → Bool
/-- Coefficients of an interpolator's filters between two samples, by filter and tap (R116, R179).
DESIGN CHOICE: log entry 103. -/
opaque Config.interpTap : Nat → Nat → Rat
/-- Equaliser output in ADC codes that the target's first coefficient stands for (R121).
DESIGN CHOICE: log entry 103. -/
opaque Config.targetLevel : Rat
/-- Scale of the detector's branch metrics (R121).
DESIGN CHOICE: log entry 103. -/
opaque Config.metricScale : Rat
/-- Scale of the timing error, in bit periods (R116).
DESIGN CHOICE: log entry 103. -/
opaque Config.timingScale : Rat
/-- Scale of an adaptive loop's update in codes of its register: gain, offset, asymmetry, taps (R133).
DESIGN CHOICE: log entry 103. -/
opaque Config.loopScale : Nat → Rat
/-- The payload of an alignment block of a ring lane (R388).
DESIGN CHOICE: log entry 101. -/
opaque Config.alignBlock : BitVec 64
/-- The payload of an acknowledgement block (R392), by the sequence it expects and whether it is a NAK.
DESIGN CHOICE: log entry 101. -/
opaque Config.ackBlock : Nat → Bool → BitVec 64
/-- The payload of a stomp block (R395).
DESIGN CHOICE: log entry 101. -/
opaque Config.stompBlock : BitVec 64
/-- The code of HELLO (0), PARK (1) and JOIN (2) at the head of a ring-control payload (R391).
DESIGN CHOICE: log entry 101. -/
opaque Config.ringControl : Nat → Byte
/-- The bytes that fill up the last block of a ring frame, by place (R388).
DESIGN CHOICE: log entry 101. -/
opaque Config.padByte : Nat → Byte
/-- The value of a descriptor whose format code is 6 or 7 (R455), by format and raw record. -/
opaque Config.sensorValue : Nat → List Byte → Int
/-- Whether a fraction n / d whose rounding no rule states is taken up to the next whole number.
DESIGN CHOICE: log entry 49. -/
opaque Config.roundUp : Int → Int → Bool
/-- One less than the capacity of the command queue of an engine target whose depth the spec does not give.
DESIGN CHOICE: log entry 21. -/
opaque Config.engineDepth : Nat → Nat
/-- A dword of a function's configuration space that software cannot write and the spec does not give, by function and offset. -/
opaque Config.cfgWord : Nat → Nat → W32

end Sys2Proof
end

