-- ==== Sys2Proof/Machine/Bytes.lean ====
section
/-!
DEFINITION. Bytes and words: little-endian order (R7), the three cyclic redundancy checks (R88), and arithmetic in the
field of R99.
-/
namespace Sys2Proof.Machine

/-- The number that a list of bytes spells, the first byte least significant (R7). -/
def leNat : List Byte → Nat
  | [] => 0
  | b :: bs => b.toNat + 256 * leNat bs

/-- The low `n` bytes of a number, the least significant first (R7). -/
def leBytes : Nat → Nat → List Byte
  | 0, _ => []
  | n + 1, x => BitVec.ofNat 8 x :: leBytes n (x / 256)

/-- `n` bytes of a list from an offset; past its end the bytes are zero. -/
def bytesAt (l : List Byte) (off n : Nat) : List Byte :=
  let d := (l.drop off).take n
  d ++ List.replicate (n - d.length) 0

/-- The little-endian number of `n` bytes of a list at an offset. -/
def natAt (l : List Byte) (off n : Nat) : Nat := leNat (bytesAt l off n)

/-- A list with the bytes from an offset replaced; its length stays. -/
def patch (l : List Byte) (off : Nat) (x : List Byte) : List Byte :=
  (l.take off ++ x ++ l.drop (off + x.length)).take l.length

/-- One bit of a reflected CRC-32C register (polynomial 0x1EDC_6F41 reflected, R88). -/
def crc32cBit (r : Nat) : Nat :=
  if r % 2 = 1 then (r / 2).xor 0x82F63B78 else r / 2

/-- The CRC-32C register advanced over one byte, least significant bit first (R88, R293). -/
def crc32cByte (r : Nat) (b : Byte) : Nat :=
  crc32cBit (crc32cBit (crc32cBit (crc32cBit (crc32cBit (crc32cBit (crc32cBit (crc32cBit (r.xor b.toNat))))))))

/-- The CRC-32C register advanced over bytes in storage order. -/
def crc32cAdv (r : Nat) (l : List Byte) : Nat := l.foldl crc32cByte r

/-- CRC-32C of a list of bytes (R88). -/
def crc32c (l : List Byte) : W32 := BitVec.ofNat 32 (crc32cAdv 0xFFFFFFFF l) ^^^ 0xFFFFFFFF

/-- CRC-32C continued from the value of the bytes before (R90). -/
def crc32cFrom (v : W32) (l : List Byte) : W32 := BitVec.ofNat 32 (crc32cAdv (v ^^^ 0xFFFFFFFF).toNat l) ^^^ 0xFFFFFFFF

/-- One bit of a CRC of width `w` taken most significant bit first. -/
def crcMsbBit (w poly r : Nat) : Nat :=
  if r / 2 ^ (w - 1) % 2 = 1 then (r * 2 % 2 ^ w).xor poly else r * 2 % 2 ^ w

/-- A CRC of width `w` advanced over one byte, most significant bit first. -/
def crcMsbByte (w poly r : Nat) (b : Byte) : Nat :=
  (List.range 8).foldl (fun x _ => crcMsbBit w poly x) (r.xor (b.toNat <<< (w - 8)))

/-- CRC-16 of a list of bytes (R88). -/
def crc16 (l : List Byte) : W16 := BitVec.ofNat 16 (l.foldl (crcMsbByte 16 0x1021) 0xFFFF)

/-- CRC-8 of a list of bytes (R88). -/
def crc8 (l : List Byte) : Byte := BitVec.ofNat 8 (l.foldl (crcMsbByte 8 0x07) 0)

/-- Multiplication by the element α of GF(2^8) with polynomial 0x11D (R99). -/
def gfTimesA (x : Byte) : Byte := if x.getLsbD 7 then (x <<< 1) ^^^ 0x1D else x <<< 1

/-- Multiplication in GF(2^8) with polynomial 0x11D (R99), over the bits of the second factor. -/
def gfMulAux : Nat → Byte → Byte → Byte
  | 0, _, _ => 0
  | n + 1, a, b => (if b.getLsbD 0 then a else 0) ^^^ gfMulAux n (gfTimesA a) (b >>> 1)

/-- The product of two elements (R99). -/
def gfMul (a b : Byte) : Byte := gfMulAux 8 a b

/-- `α ^ n` (R99), the exponent taken modulo 255. -/
def gfPow (n : Nat) : Byte := (List.range (n % 255)).foldl (fun x _ => gfTimesA x) 1

/-- `x ^ n` by repeated squaring over the 8 bits of `n`. -/
def gfExp (x : Byte) : Nat → Nat → Byte
  | 0, _ => 1
  | k + 1, n => let h := gfExp x k (n / 2); let q := gfMul h h; if n % 2 = 1 then gfMul q x else q

/-- The inverse, `x ^ 254`; the inverse of 0 is taken as 0 and never used. -/
def gfInv (x : Byte) : Byte := gfExp x 8 254

/-- The quotient of two elements. -/
def gfDiv (a b : Byte) : Byte := gfMul a (gfInv b)

/-- Bits of a byte list, each byte most significant bit first. -/
def msbBits (l : List Byte) : List Bool :=
  l.flatMap fun b => (List.range 8).map fun i => b.getLsbD (7 - i)

/-- The bytes of two lists XORed one with the other, as far as the shorter reaches. -/
def xorBytes (a b : List Byte) : List Byte := List.zipWith (· ^^^ ·) a b

/-- The scrambler x^58 + x^39 + 1 over `n` payload bits, from bit `k` on: what is sent, and the register, its bit 0 the latest bit
sent. -/
def scramblePayload : Nat → Nat → BitVec 58 → BitVec 64 → BitVec 64 → BitVec 64 × BitVec 58
  | 0, _, r, _, acc => (acc, r)
  | n + 1, k, r, v, acc =>
    let b := v.getLsbD k ^^ (r.getLsbD 38 ^^ r.getLsbD 57)
    scramblePayload n (k + 1) ((r <<< 1) ||| (if b then 1 else 0)) v (acc ||| (if b then 1 <<< k else 0))

/-- A block of a link (R157): its header 0b01 for data or 0b10 for control, then the scrambled payload.
DEDUCED: log entry 97. -/
def linkBlock (data : Bool) (payload : BitVec 64) (r : BitVec 58) : BitVec 66 × BitVec 58 :=
  let (v, r) := scramblePayload 64 0 r payload 0
  ((v.zeroExtend 66 <<< 2) ||| (if data then 2 else 1), r)

end Sys2Proof.Machine
end

