-- ==== Sys2Proof/Machine/Fields.lean ====
section
/-!
DEFINITION. Every field of every register the spec's register tables give, as a constant: its register's offset in BAR0 of
the physical function (R370), the step from one register of an array to the next and how many there are, its bits, its
access code (R3) and its value after VIN power-on (R2). A field is named after its register and itself. Reserved fields
have no constant: they read zero (R6).
-/
namespace Sys2Proof.Machine

/-- The access codes of R3. -/
inductive Access where
  | rw | ro | wo | w1c | w1s | rc | rws
  deriving DecidableEq, Repr

/-- A field of a register, or of each register of an array of registers. -/
structure Field where
  base : Nat
  stride : Nat
  count : Nat
  lo : Nat
  width : Nat
  acc : Access
  reset : Nat
  deriving DecidableEq, Repr

/-! ## BOOT (16_boot_reset.md) -/

def F.BOOT_PART.GRADE : Field := ⟨0x0, 0x0, 1, 4, 4, .ro, 0x0⟩
def F.BOOT_PART.SIREV : Field := ⟨0x0, 0x0, 1, 8, 8, .ro, 0x0⟩
def F.BOOT_PART.PART : Field := ⟨0x0, 0x0, 1, 16, 16, .ro, 0x6400⟩

def F.BOOT_SERL.SER_LO : Field := ⟨0x4, 0x0, 1, 0, 32, .ro, 0x0⟩

def F.BOOT_SERH.SER_HI : Field := ⟨0x8, 0x0, 1, 0, 32, .ro, 0x0⟩

def F.BOOT_IDKH.IDKH : Field := ⟨0x20, 0x0, 1, 0, 32, .ro, 0x0⟩

def F.BOOT_STAT.BEGUN : Field := ⟨0xc, 0x0, 1, 0, 9, .ro, 0x0⟩
def F.BOOT_STAT.KIND : Field := ⟨0xc, 0x0, 1, 9, 3, .ro, 0x0⟩
def F.BOOT_STAT.DONE : Field := ⟨0xc, 0x0, 1, 16, 9, .ro, 0x0⟩
def F.BOOT_STAT.FLASH_ERR : Field := ⟨0xc, 0x0, 1, 25, 1, .w1c, 0x0⟩
def F.BOOT_STAT.FL_REFUSED : Field := ⟨0xc, 0x0, 1, 26, 1, .w1c, 0x0⟩
def F.BOOT_STAT.ALT_SLOT : Field := ⟨0xc, 0x0, 1, 29, 1, .ro, 0x0⟩
def F.BOOT_STAT.ROM_ONLY : Field := ⟨0xc, 0x0, 1, 30, 1, .ro, 0x0⟩
def F.BOOT_STAT.COMPLETE : Field := ⟨0xc, 0x0, 1, 31, 1, .ro, 0x0⟩

def F.BOOT_ALT.CLR : Field := ⟨0x10, 0x0, 1, 0, 9, .wo, 0x0⟩
def F.BOOT_ALT.STICKY : Field := ⟨0x10, 0x0, 1, 16, 9, .ro, 0x0⟩

def F.BOOT_WDOG.PERIOD : Field := ⟨0x14, 0x0, 1, 0, 16, .rw, 0x0⟩
def F.BOOT_WDOG.KICK : Field := ⟨0x14, 0x0, 1, 31, 1, .wo, 0x0⟩

def F.BOOT_FLOOR.FLOOR : Field := ⟨0x18, 0x0, 1, 0, 32, .ro, 0x0⟩

def F.BOOT_PFLOOR.PFLOOR : Field := ⟨0x1c, 0x0, 1, 0, 32, .ro, 0x0⟩

def F.BOOT_FL_ADDR.ADDR : Field := ⟨0x24, 0x0, 1, 0, 32, .rw, 0x0⟩

def F.BOOT_FL_CMD.OP : Field := ⟨0x28, 0x0, 1, 0, 2, .wo, 0x0⟩
def F.BOOT_FL_CMD.BUSY : Field := ⟨0x28, 0x0, 1, 31, 1, .ro, 0x0⟩

/-! ## PWR (15_power.md) -/

def F.PWR_CTL.AUTO : Field := ⟨0x100000, 0x0, 1, 0, 1, .rw, 0x1⟩
def F.PWR_CTL.QDR_POL : Field := ⟨0x100000, 0x0, 1, 4, 2, .rw, 0x0⟩
def F.PWR_CTL.RING_KEEP : Field := ⟨0x100000, 0x0, 1, 8, 1, .rw, 0x1⟩

def F.PWR_T1.T1 : Field := ⟨0x100004, 0x0, 1, 0, 24, .rw, 0x1388⟩

def F.PWR_T2.T2 : Field := ⟨0x100008, 0x0, 1, 0, 24, .rw, 0x7d0⟩

def F.PWR_T3.T3 : Field := ⟨0x10000c, 0x0, 1, 0, 24, .rw, 0xea60⟩

def F.PWR_DROP.DROP_S : Field := ⟨0x100010, 0x0, 1, 0, 24, .rw, 0xe10⟩

def F.PWR_CMD.TARGET : Field := ⟨0x100014, 0x0, 1, 0, 3, .wo, 0x0⟩
def F.PWR_CMD.GO : Field := ⟨0x100014, 0x0, 1, 31, 1, .wo, 0x0⟩

def F.PWR_STAT.STATE : Field := ⟨0x100018, 0x0, 1, 0, 3, .ro, 0x0⟩
def F.PWR_STAT.LATCHED : Field := ⟨0x100018, 0x0, 1, 4, 3, .ro, 0x0⟩
def F.PWR_STAT.WLOG_HEAD : Field := ⟨0x100018, 0x0, 1, 8, 6, .ro, 0x0⟩
def F.PWR_STAT.LAST_WAKE : Field := ⟨0x100018, 0x0, 1, 16, 10, .ro, 0x0⟩
def F.PWR_STAT.STOPPED_ONLY : Field := ⟨0x100018, 0x0, 1, 27, 1, .w1c, 0x0⟩
def F.PWR_STAT.IMG_LOST : Field := ⟨0x100018, 0x0, 1, 28, 1, .w1c, 0x0⟩
def F.PWR_STAT.QDR_DROPPED : Field := ⟨0x100018, 0x0, 1, 29, 1, .w1c, 0x0⟩
def F.PWR_STAT.ABANDONED : Field := ⟨0x100018, 0x0, 1, 30, 1, .w1c, 0x0⟩
def F.PWR_STAT.CMD_REFUSED : Field := ⟨0x100018, 0x0, 1, 31, 1, .w1c, 0x0⟩

def F.PWR_CNT.ABANDON_CNT : Field := ⟨0x100020, 0x0, 1, 0, 16, .rc, 0x0⟩
def F.PWR_CNT.NAPS : Field := ⟨0x100020, 0x0, 1, 16, 16, .rc, 0x0⟩

def F.PWR_NAPIMG.HANDLE : Field := ⟨0x100024, 0x0, 1, 0, 32, .rw, 0x0⟩

def F.SMP_CTL.SETTLE : Field := ⟨0x100100, 0x0, 1, 20, 8, .rws, 0x14⟩
def F.SMP_CTL.LOG_ALL : Field := ⟨0x100100, 0x0, 1, 31, 1, .rws, 0x0⟩

def F.SMP_PERIOD.PERIOD : Field := ⟨0x100104, 0x0, 1, 0, 17, .rw, 0x0⟩

def F.SMP_STAT.TAIL : Field := ⟨0x100108, 0x0, 1, 0, 10, .rw, 0x0⟩
def F.SMP_STAT.HEAD : Field := ⟨0x100108, 0x0, 1, 16, 10, .ro, 0x0⟩
def F.SMP_STAT.SKIPPED : Field := ⟨0x100108, 0x0, 1, 28, 1, .w1c, 0x0⟩
def F.SMP_STAT.BUS_ERR : Field := ⟨0x100108, 0x0, 1, 29, 1, .w1c, 0x0⟩
def F.SMP_STAT.SUPPLY_ERR : Field := ⟨0x100108, 0x0, 1, 30, 1, .w1c, 0x0⟩
def F.SMP_STAT.OVERWRITE : Field := ⟨0x100108, 0x0, 1, 31, 1, .w1c, 0x0⟩

def F.PWR_GPIO.OUT : Field := ⟨0x100040, 0x0, 1, 0, 8, .rw, 0x0⟩
def F.PWR_GPIO.OE : Field := ⟨0x100040, 0x0, 1, 8, 8, .rw, 0x0⟩
def F.PWR_GPIO.IN : Field := ⟨0x100040, 0x0, 1, 24, 8, .ro, 0x0⟩

/-! ## UMP (13_ring_umpire.md) -/

def F.UMP_CTL.RUN : Field := ⟨0x200000, 0x0, 1, 0, 1, .rw, 0x0⟩
def F.UMP_CTL.CORE : Field := ⟨0x200000, 0x0, 1, 4, 4, .rws, 0xe⟩

def F.UMP_LOG.HANDLE : Field := ⟨0x200004, 0x0, 1, 0, 32, .rws, 0x0⟩

def F.UMP_PTR.HEAD : Field := ⟨0x200008, 0x0, 1, 0, 7, .ro, 0x0⟩
def F.UMP_PTR.TAIL : Field := ⟨0x200008, 0x0, 1, 8, 7, .rw, 0x0⟩

def F.UMP_CNT.DROPPED : Field := ⟨0x20000c, 0x0, 1, 0, 16, .rc, 0x0⟩
def F.UMP_CNT.FORWARDED : Field := ⟨0x20000c, 0x0, 1, 16, 16, .rc, 0x0⟩

def F.UMP_STAT.STOPPED_ONLY : Field := ⟨0x200010, 0x0, 1, 0, 1, .w1c, 0x0⟩

/-! ## HST (12_host_port.md) -/

def F.HST_CTL.RUN : Field := ⟨0x300000, 0x0, 1, 0, 1, .rw, 0x0⟩
def F.HST_CTL.DBG_EN : Field := ⟨0x300000, 0x0, 1, 1, 1, .rw, 0x0⟩
def F.HST_CTL.BATCH : Field := ⟨0x300000, 0x0, 1, 8, 8, .rws, 0x10⟩
def F.HST_CTL.WI_CLASS : Field := ⟨0x300000, 0x0, 1, 16, 3, .rws, 0x0⟩

def F.HST_STAT.STOPPED_ONLY : Field := ⟨0x300004, 0x0, 1, 0, 1, .w1c, 0x0⟩
def F.HST_STAT.ACC_ERR : Field := ⟨0x300004, 0x0, 1, 1, 1, .w1c, 0x0⟩
def F.HST_STAT.DB_ERR : Field := ⟨0x300004, 0x0, 1, 2, 1, .w1c, 0x0⟩
def F.HST_STAT.FLR_SEEN : Field := ⟨0x300004, 0x0, 1, 3, 1, .w1c, 0x0⟩
def F.HST_STAT.WI_EMPTY : Field := ⟨0x300004, 0x0, 1, 4, 1, .w1c, 0x0⟩
def F.HST_STAT.CFG_REFUSED : Field := ⟨0x300004, 0x0, 1, 5, 1, .w1c, 0x0⟩
def F.HST_STAT.WIDTH : Field := ⟨0x300004, 0x0, 1, 24, 4, .ro, 0x0⟩
def F.HST_STAT.SPEED : Field := ⟨0x300004, 0x0, 1, 28, 3, .ro, 0x0⟩
def F.HST_STAT.LINK_UP : Field := ⟨0x300004, 0x0, 1, 31, 1, .ro, 0x0⟩

def F.HST_CNT.MALFORMED : Field := ⟨0x300008, 0x0, 1, 0, 16, .rc, 0x0⟩
def F.HST_CNT.ITEMS : Field := ⟨0x300008, 0x0, 1, 16, 16, .rc, 0x0⟩

def F.HST_FN.NQ : Field := ⟨0x300100, 0x4, 16, 0, 9, .rws, 0x0⟩
def F.HST_FN.CRC_DEV : Field := ⟨0x300100, 0x4, 16, 16, 1, .rws, 0x0⟩
def F.HST_FN.ACTIVE : Field := ⟨0x300100, 0x4, 16, 31, 1, .ro, 0x0⟩

def F.HST_SQB_LO.ADDR : Field := ⟨0x302000, 0x20, 256, 12, 20, .rws, 0x0⟩

def F.HST_SQB_HI.ADDR : Field := ⟨0x302004, 0x20, 256, 0, 32, .rws, 0x0⟩

def F.HST_CQB_LO.ADDR : Field := ⟨0x302008, 0x20, 256, 12, 20, .rws, 0x0⟩

def F.HST_CQB_HI.ADDR : Field := ⟨0x30200c, 0x20, 256, 0, 32, .rws, 0x0⟩

def F.HST_QCFG.VEC : Field := ⟨0x302010, 0x20, 256, 0, 3, .rws, 0x0⟩
def F.HST_QCFG.SQ_LOG : Field := ⟨0x302010, 0x20, 256, 16, 5, .rws, 0x4⟩
def F.HST_QCFG.CQ_LOG : Field := ⟨0x302010, 0x20, 256, 24, 5, .rws, 0x4⟩
def F.HST_QCFG.EN : Field := ⟨0x302010, 0x20, 256, 31, 1, .rw, 0x0⟩

def F.HST_QSTAT.SQ_HEAD : Field := ⟨0x302014, 0x20, 256, 0, 16, .ro, 0x0⟩
def F.HST_QSTAT.CQ_TAIL : Field := ⟨0x302014, 0x20, 256, 16, 16, .ro, 0x0⟩

def F.HST_QCOAL.COAL_CNT : Field := ⟨0x302018, 0x20, 256, 0, 8, .rw, 0x1⟩
def F.HST_QCOAL.COAL_US : Field := ⟨0x302018, 0x20, 256, 16, 16, .rw, 0x0⟩

/-! ## RNG (13_ring_umpire.md) -/

def F.RNG_CTL.RUN : Field := ⟨0x400000, 0x0, 1, 0, 1, .rw, 0x0⟩
def F.RNG_CTL.EAST_EN : Field := ⟨0x400000, 0x0, 1, 1, 1, .rw, 0x0⟩
def F.RNG_CTL.WEST_EN : Field := ⟨0x400000, 0x0, 1, 2, 1, .rw, 0x0⟩
def F.RNG_CTL.ID : Field := ⟨0x400000, 0x0, 1, 16, 16, .rws, 0x0⟩

def F.RNG_PORTE.STATE : Field := ⟨0x400004, 0x0, 1, 0, 3, .ro, 0x0⟩
def F.RNG_PORTE.NBR_ID : Field := ⟨0x400004, 0x0, 1, 16, 16, .ro, 0x0⟩

def F.RNG_PORTW.STATE : Field := ⟨0x400008, 0x0, 1, 0, 3, .ro, 0x0⟩
def F.RNG_PORTW.NBR_ID : Field := ⟨0x400008, 0x0, 1, 16, 16, .ro, 0x0⟩

def F.RNG_SERVE.GO : Field := ⟨0x40000c, 0x0, 1, 0, 1, .wo, 0x0⟩
def F.RNG_SERVE.PORT : Field := ⟨0x40000c, 0x0, 1, 2, 1, .rw, 0x0⟩
def F.RNG_SERVE.REPEAT : Field := ⟨0x40000c, 0x0, 1, 4, 4, .rw, 0x4⟩
def F.RNG_SERVE.HOPS : Field := ⟨0x40000c, 0x0, 1, 8, 8, .rw, 0x0⟩
def F.RNG_SERVE.SERVE_ID : Field := ⟨0x40000c, 0x0, 1, 16, 16, .rw, 0x0⟩

def F.RNG_STAT.STOPPED_ONLY : Field := ⟨0x400010, 0x0, 1, 0, 1, .w1c, 0x0⟩
def F.RNG_STAT.ID_CLASH : Field := ⟨0x400010, 0x0, 1, 1, 1, .w1c, 0x0⟩
def F.RNG_STAT.SERVE_REFUSED : Field := ⟨0x400010, 0x0, 1, 2, 1, .w1c, 0x0⟩

def F.RNG_CNT.FOLDS : Field := ⟨0x400014, 0x0, 1, 0, 8, .rc, 0x0⟩
def F.RNG_CNT.STOMPS : Field := ⟨0x400014, 0x0, 1, 8, 8, .rc, 0x0⟩
def F.RNG_CNT.RESENDS : Field := ⟨0x400014, 0x0, 1, 16, 16, .rc, 0x0⟩

/-! ## CORE (09_laruf_isa.md) -/

def F.CORE_LOAD_H.HANDLE : Field := ⟨0x500000, 0x0, 1, 0, 32, .rw, 0x0⟩

def F.CORE_LOAD_L.LENGTH : Field := ⟨0x500004, 0x0, 1, 0, 18, .rw, 0x0⟩

def F.CORE_LOAD_CTL.TARGETS : Field := ⟨0x500008, 0x0, 1, 0, 16, .rw, 0x0⟩
def F.CORE_LOAD_CTL.GO : Field := ⟨0x500008, 0x0, 1, 31, 1, .wo, 0x0⟩

def F.CORE_LOAD_STAT.RESULT : Field := ⟨0x50000c, 0x0, 1, 0, 8, .ro, 0x0⟩
def F.CORE_LOAD_STAT.BUSY : Field := ⟨0x50000c, 0x0, 1, 31, 1, .ro, 0x0⟩

def F.CORE_CFG.GRACE : Field := ⟨0x500010, 0x0, 1, 0, 16, .rw, 0x40⟩

def F.CORE_WSEL.CORE : Field := ⟨0x500014, 0x0, 1, 0, 4, .rw, 0x0⟩
def F.CORE_WSEL.SPACE : Field := ⟨0x500014, 0x0, 1, 4, 1, .rw, 0x0⟩

def F.CORE_CTL.RUN : Field := ⟨0x500100, 0x10, 16, 0, 1, .rw, 0x0⟩
def F.CORE_CTL.FORCE : Field := ⟨0x500100, 0x10, 16, 1, 1, .wo, 0x0⟩
def F.CORE_CTL.SIGNAL : Field := ⟨0x500100, 0x10, 16, 2, 1, .wo, 0x0⟩

def F.CORE_STAT.STATE : Field := ⟨0x500104, 0x10, 16, 0, 2, .ro, 0x0⟩
def F.CORE_STAT.IMG_OK : Field := ⟨0x500104, 0x10, 16, 2, 1, .ro, 0x0⟩
def F.CORE_STAT.START_REFUSED : Field := ⟨0x500104, 0x10, 16, 3, 1, .w1c, 0x0⟩
def F.CORE_STAT.STOPPED_ONLY : Field := ⟨0x500104, 0x10, 16, 4, 1, .w1c, 0x0⟩
def F.CORE_STAT.LEVEL : Field := ⟨0x500104, 0x10, 16, 6, 2, .ro, 0x0⟩
def F.CORE_STAT.FCODE : Field := ⟨0x500104, 0x10, 16, 24, 8, .ro, 0x0⟩

def F.CORE_FAULT.FPC : Field := ⟨0x500108, 0x10, 16, 0, 16, .ro, 0x0⟩
def F.CORE_FAULT.FSTAT : Field := ⟨0x500108, 0x10, 16, 16, 16, .ro, 0x0⟩

def F.CORE_IMGV.VERSION : Field := ⟨0x50010c, 0x10, 16, 0, 32, .ro, 0x0⟩

def F.CORE_TXR_BASE.HANDLE : Field := ⟨0x500018, 0x0, 1, 0, 32, .rws, 0x0⟩

def F.CORE_TXCNT.CAPACITY : Field := ⟨0x50001c, 0x0, 1, 0, 8, .rc, 0x0⟩
def F.CORE_TXCNT.CONFLICTS : Field := ⟨0x50001c, 0x0, 1, 8, 8, .rc, 0x0⟩
def F.CORE_TXCNT.COMMITS : Field := ⟨0x50001c, 0x0, 1, 16, 16, .rc, 0x0⟩

def F.CORE_TXSTAT.STOPPED_ONLY : Field := ⟨0x500020, 0x0, 1, 0, 1, .w1c, 0x0⟩

/-! ## QUE (08_memory_pools_queues.md) -/

def F.QUE_GSTAT.CFG_REFUSED : Field := ⟨0x600000, 0x0, 1, 0, 1, .w1c, 0x0⟩
def F.QUE_GSTAT.LAST_Q : Field := ⟨0x600000, 0x0, 1, 1, 9, .ro, 0x0⟩
def F.QUE_GSTAT.QRESET : Field := ⟨0x600000, 0x0, 1, 16, 16, .rc, 0x0⟩

def F.QUE_FLOW.PIN : Field := ⟨0x600004, 0x0, 1, 0, 4, .ro, 0x0⟩
def F.QUE_FLOW.STOPPED_ONLY : Field := ⟨0x600004, 0x0, 1, 4, 1, .w1c, 0x0⟩
def F.QUE_FLOW.FORCE : Field := ⟨0x600004, 0x0, 1, 8, 4, .rw, 0x0⟩

def F.QUE_CFG.BASE : Field := ⟨0x610000, 0x10, 512, 0, 13, .rws, 0x0⟩
def F.QUE_CFG.DEPTH : Field := ⟨0x610000, 0x10, 512, 13, 4, .rws, 0x0⟩
def F.QUE_CFG.FLOW_SEL : Field := ⟨0x610000, 0x10, 512, 24, 2, .rws, 0x0⟩
def F.QUE_CFG.FLOW_EN : Field := ⟨0x610000, 0x10, 512, 26, 1, .rws, 0x0⟩
def F.QUE_CFG.EN : Field := ⟨0x610000, 0x10, 512, 31, 1, .rw, 0x0⟩

def F.QUE_WM.LOW : Field := ⟨0x610004, 0x10, 512, 0, 13, .rws, 0x0⟩
def F.QUE_WM.HIGH : Field := ⟨0x610004, 0x10, 512, 16, 13, .rws, 0x0⟩

def F.QUE_STAT.ITEMS : Field := ⟨0x610008, 0x10, 512, 0, 13, .ro, 0x0⟩
def F.QUE_STAT.ABOVE : Field := ⟨0x610008, 0x10, 512, 31, 1, .ro, 0x0⟩

/-! ## POOL (08_memory_pools_queues.md) -/

def F.POOL_CTL.RUN : Field := ⟨0x700000, 0x0, 1, 0, 1, .rw, 0x0⟩

def F.POOL_CLASS.BASE : Field := ⟨0x700100, 0x8, 8, 0, 16, .rws, 0x0⟩
def F.POOL_CLASS.NEXT : Field := ⟨0x700100, 0x8, 8, 16, 4, .rws, 0xf⟩
def F.POOL_CLASS.EN : Field := ⟨0x700100, 0x8, 8, 31, 1, .rws, 0x0⟩

def F.POOL_COUNT.COUNT : Field := ⟨0x700104, 0x8, 8, 0, 21, .rws, 0x0⟩

def F.POOL_FREE.FREE : Field := ⟨0x700200, 0x4, 8, 0, 21, .ro, 0x0⟩

def F.POOL_STAT.STOPPED_ONLY : Field := ⟨0x700008, 0x0, 1, 0, 1, .w1c, 0x0⟩
def F.POOL_STAT.BAD_FREE_SEEN : Field := ⟨0x700008, 0x0, 1, 1, 1, .w1c, 0x0⟩
def F.POOL_STAT.CFG_REFUSED : Field := ⟨0x700008, 0x0, 1, 2, 1, .w1c, 0x0⟩
def F.POOL_STAT.IN_USE : Field := ⟨0x700008, 0x0, 1, 3, 1, .w1c, 0x0⟩
def F.POOL_STAT.EMPTY_SEEN : Field := ⟨0x700008, 0x0, 1, 4, 1, .w1c, 0x0⟩

def F.POOL_CNT.BAD_OWNER_CNT : Field := ⟨0x70000c, 0x0, 1, 0, 16, .rc, 0x0⟩
def F.POOL_CNT.BAD_FREE_CNT : Field := ⟨0x70000c, 0x0, 1, 16, 16, .rc, 0x0⟩

def F.POOL_LOG0.HANDLE : Field := ⟨0x700010, 0x0, 1, 0, 32, .ro, 0x0⟩

def F.POOL_LOG1.REQ : Field := ⟨0x700014, 0x0, 1, 0, 8, .ro, 0x0⟩
def F.POOL_LOG1.OWNER : Field := ⟨0x700014, 0x0, 1, 8, 8, .ro, 0x0⟩
def F.POOL_LOG1.STATUS : Field := ⟨0x700014, 0x0, 1, 16, 16, .ro, 0x0⟩

/-! ## TIL (08_memory_pools_queues.md) -/

def F.TIL_CTL.SCRUB_EN : Field := ⟨0x800000, 0x0, 1, 0, 1, .rw, 0x1⟩
def F.TIL_CTL.BUSERR_MODE : Field := ⟨0x800000, 0x0, 1, 1, 1, .rws, 0x0⟩

def F.TIL_REGION.STRONG : Field := ⟨0x800010, 0x4, 8, 0, 32, .rws, 0xffffffff⟩

def F.TIL_STAT.STOPPED_ONLY : Field := ⟨0x800040, 0x0, 1, 0, 1, .w1c, 0x0⟩
def F.TIL_STAT.CORRECTED : Field := ⟨0x800040, 0x0, 1, 1, 1, .w1c, 0x0⟩
def F.TIL_STAT.POISONED : Field := ⟨0x800040, 0x0, 1, 2, 1, .w1c, 0x0⟩
def F.TIL_STAT.LAST_TILE : Field := ⟨0x800040, 0x0, 1, 16, 16, .ro, 0x0⟩

def F.TIL_SCRUB.LAP_MS : Field := ⟨0x800044, 0x0, 1, 0, 32, .ro, 0x0⟩

def F.TIL_SCRUB1.LAP_TILES : Field := ⟨0x800048, 0x0, 1, 0, 17, .ro, 0x0⟩

def F.TIL_CNT.POIS_CNT : Field := ⟨0x80004c, 0x0, 1, 0, 16, .rc, 0x0⟩
def F.TIL_CNT.CORR_CNT : Field := ⟨0x80004c, 0x0, 1, 16, 16, .rc, 0x0⟩

def F.TIL_SIZE.DIES : Field := ⟨0x800050, 0x0, 1, 0, 4, .ro, 0xf⟩
def F.TIL_SIZE.TILES : Field := ⟨0x800050, 0x0, 1, 8, 17, .ro, 0x10000⟩

/-! ## CMP (07_thatch_compression.md) -/

def F.CMP_CTL.RUN : Field := ⟨0x900000, 0x0, 1, 0, 1, .rw, 0x0⟩
def F.CMP_CTL.CLANE_EN : Field := ⟨0x900000, 0x0, 1, 4, 4, .rws, 0xf⟩
def F.CMP_CTL.DLANE_EN : Field := ⟨0x900000, 0x0, 1, 8, 4, .rws, 0xf⟩
def F.CMP_CTL.GAIN_PCT : Field := ⟨0x900000, 0x0, 1, 16, 7, .rws, 0x0⟩

def F.CMP_CTX_BASE.HANDLE : Field := ⟨0x900004, 0x0, 1, 0, 32, .rws, 0x0⟩

def F.CMP_STAT.STOPPED_ONLY : Field := ⟨0x900008, 0x0, 1, 0, 1, .w1c, 0x0⟩
def F.CMP_STAT.VFY_MISMATCH : Field := ⟨0x900008, 0x0, 1, 1, 1, .w1c, 0x0⟩
def F.CMP_STAT.BAD_BUNDLE : Field := ⟨0x900008, 0x0, 1, 2, 1, .w1c, 0x0⟩
def F.CMP_STAT.CTX_BAD : Field := ⟨0x900008, 0x0, 1, 3, 1, .w1c, 0x0⟩
def F.CMP_STAT.BUSY : Field := ⟨0x900008, 0x0, 1, 31, 1, .ro, 0x0⟩

def F.CMP_LANE.QUEUED : Field := ⟨0x900010, 0x4, 8, 0, 4, .ro, 0x0⟩
def F.CMP_LANE.SLOT : Field := ⟨0x900010, 0x4, 8, 16, 6, .ro, 0x0⟩
def F.CMP_LANE.ACTIVE : Field := ⟨0x900010, 0x4, 8, 30, 1, .ro, 0x0⟩
def F.CMP_LANE.BOUND : Field := ⟨0x900010, 0x4, 8, 31, 1, .ro, 0x0⟩

def F.CMP_CNT0.NO_GAIN_CNT : Field := ⟨0x900040, 0x0, 1, 0, 16, .rc, 0x0⟩
def F.CMP_CNT0.BUNDLES : Field := ⟨0x900040, 0x0, 1, 16, 16, .rc, 0x0⟩

def F.CMP_CNT1.BAD_CNT : Field := ⟨0x900044, 0x0, 1, 0, 8, .rc, 0x0⟩
def F.CMP_CNT1.VFY_FAIL : Field := ⟨0x900044, 0x0, 1, 8, 8, .rc, 0x0⟩
def F.CMP_CNT1.SWITCHES : Field := ⟨0x900044, 0x0, 1, 16, 16, .rc, 0x0⟩

/-! ## CIP (11_cipher_keys.md) -/

def F.CIP_CTL.RUN : Field := ⟨0xa00000, 0x0, 1, 0, 1, .rw, 0x0⟩
def F.CIP_CTL.LOCK_IDLE : Field := ⟨0xa00000, 0x0, 1, 16, 16, .rws, 0x64⟩

def F.CIP_LOCK.SLOT : Field := ⟨0xa00004, 0x0, 1, 0, 7, .ro, 0x0⟩
def F.CIP_LOCK.FREE : Field := ⟨0xa00004, 0x0, 1, 8, 1, .wo, 0x0⟩
def F.CIP_LOCK.HOLDER : Field := ⟨0xa00004, 0x0, 1, 20, 4, .ro, 0x0⟩
def F.CIP_LOCK.KSIZE : Field := ⟨0xa00004, 0x0, 1, 24, 2, .ro, 0x0⟩
def F.CIP_LOCK.SUSP : Field := ⟨0xa00004, 0x0, 1, 30, 1, .ro, 0x0⟩
def F.CIP_LOCK.HELD : Field := ⟨0xa00004, 0x0, 1, 31, 1, .ro, 0x0⟩

def F.CIP_STAT.STOPPED_ONLY : Field := ⟨0xa00008, 0x0, 1, 0, 1, .w1c, 0x0⟩
def F.CIP_STAT.KEY_GONE_SEEN : Field := ⟨0xa00008, 0x0, 1, 1, 1, .w1c, 0x0⟩
def F.CIP_STAT.LOCK_FORCED : Field := ⟨0xa00008, 0x0, 1, 2, 1, .w1c, 0x0⟩
def F.CIP_STAT.BUSY : Field := ⟨0xa00008, 0x0, 1, 31, 1, .ro, 0x0⟩

def F.CIP_CNT.SUSPENDS : Field := ⟨0xa0000c, 0x0, 1, 0, 16, .rc, 0x0⟩
def F.CIP_CNT.MESSAGES : Field := ⟨0xa0000c, 0x0, 1, 16, 16, .rc, 0x0⟩

def F.KEY_CTL.VOLT_EN : Field := ⟨0xa01000, 0x0, 1, 0, 1, .rw, 0x1⟩
def F.KEY_CTL.CLK_EN : Field := ⟨0xa01000, 0x0, 1, 1, 1, .rw, 0x1⟩
def F.KEY_CTL.TEMP_EN : Field := ⟨0xa01000, 0x0, 1, 2, 1, .rw, 0x1⟩
def F.KEY_CTL.TAMPER_EN : Field := ⟨0xa01000, 0x0, 1, 3, 1, .rw, 0x1⟩
def F.KEY_CTL.SECURE : Field := ⟨0xa01000, 0x0, 1, 4, 1, .w1s, 0x0⟩

def F.KEY_ALARM.VOLT : Field := ⟨0xa01004, 0x0, 1, 0, 1, .ro, 0x0⟩
def F.KEY_ALARM.CLK : Field := ⟨0xa01004, 0x0, 1, 1, 1, .ro, 0x0⟩
def F.KEY_ALARM.TEMP : Field := ⟨0xa01004, 0x0, 1, 2, 1, .ro, 0x0⟩
def F.KEY_ALARM.TAMPER : Field := ⟨0xa01004, 0x0, 1, 3, 1, .ro, 0x0⟩
def F.KEY_ALARM.SECV : Field := ⟨0xa01004, 0x0, 1, 4, 1, .ro, 0x0⟩
def F.KEY_ALARM.ALARM : Field := ⟨0xa01004, 0x0, 1, 31, 1, .ro, 0x0⟩

def F.KEY_CNT.BUSY_REFUSED : Field := ⟨0xa01008, 0x0, 1, 0, 8, .rc, 0x0⟩
def F.KEY_CNT.UNWRAP_FAIL : Field := ⟨0xa01008, 0x0, 1, 8, 8, .rc, 0x0⟩
def F.KEY_CNT.IMPORTS : Field := ⟨0xa01008, 0x0, 1, 16, 16, .rc, 0x0⟩

def F.KEY_SLOT.ENC : Field := ⟨0xa01100, 0x10, 72, 0, 1, .ro, 0x0⟩
def F.KEY_SLOT.DEC : Field := ⟨0xa01100, 0x10, 72, 1, 1, .ro, 0x0⟩
def F.KEY_SLOT.KSIZE : Field := ⟨0xa01100, 0x10, 72, 8, 2, .ro, 0x0⟩
def F.KEY_SLOT.HELD : Field := ⟨0xa01100, 0x10, 72, 30, 1, .ro, 0x0⟩
def F.KEY_SLOT.VALID : Field := ⟨0xa01100, 0x10, 72, 31, 1, .ro, 0x0⟩

def F.KEY_TKIDL.TKID_LO : Field := ⟨0xa01104, 0x10, 72, 0, 32, .ro, 0x0⟩

def F.KEY_TKIDH.TKID_HI : Field := ⟨0xa01108, 0x10, 72, 0, 32, .ro, 0x0⟩

/-! ## FMT (03_tape_codes.md) -/

def F.FMT_CODE_CTL.C1_MAX_IT : Field := ⟨0xb00100, 0x0, 1, 0, 5, .rws, 0x18⟩
def F.FMT_CODE_CTL.C1_SCALE : Field := ⟨0xb00100, 0x0, 1, 8, 4, .rws, 0xc⟩
def F.FMT_CODE_CTL.C3_EN : Field := ⟨0xb00100, 0x0, 1, 16, 1, .rws, 0x1⟩
def F.FMT_CODE_CTL.QUAD_MIX : Field := ⟨0xb00100, 0x0, 1, 17, 1, .rws, 0x1⟩

def F.FMT_CODE_CNT0.C1_FAIL : Field := ⟨0xb00104, 0x0, 1, 0, 16, .rc, 0x0⟩
def F.FMT_CODE_CNT0.POS_ERASED : Field := ⟨0xb00104, 0x0, 1, 16, 16, .rc, 0x0⟩

def F.FMT_CODE_CNT1.C2_CORR : Field := ⟨0xb00108, 0x0, 1, 0, 16, .rc, 0x0⟩
def F.FMT_CODE_CNT1.C2_FAIL : Field := ⟨0xb00108, 0x0, 1, 16, 16, .rc, 0x0⟩

def F.FMT_CODE_CNT2.C3_CORR : Field := ⟨0xb0010c, 0x0, 1, 0, 16, .rc, 0x0⟩
def F.FMT_CODE_CNT2.C3_FAIL : Field := ⟨0xb0010c, 0x0, 1, 16, 16, .rc, 0x0⟩

def F.FMT_STAT.STOPPED_ONLY : Field := ⟨0xb00110, 0x0, 1, 0, 1, .w1c, 0x0⟩

/-! ## WRC (05_write_and_verify.md) -/

def F.WRC_CTL.RUN : Field := ⟨0xc00000, 0x0, 1, 0, 1, .rw, 0x0⟩
def F.WRC_CTL.INH_SW : Field := ⟨0xc00000, 0x0, 1, 1, 1, .rw, 0x0⟩
def F.WRC_CTL.AUTO_RESUME : Field := ⟨0xc00000, 0x0, 1, 2, 1, .rws, 0x1⟩
def F.WRC_CTL.INH_CLR : Field := ⟨0xc00000, 0x0, 1, 3, 1, .wo, 0x0⟩

def F.WRC_GAP_FWD.GAP : Field := ⟨0xc00004, 0x0, 1, 0, 20, .rws, 0x5c460⟩

def F.WRC_GAP_REV.GAP : Field := ⟨0xc00008, 0x0, 1, 0, 20, .rws, 0x5c460⟩

def F.WRC_VFY_CTL.MARGIN : Field := ⟨0xc0000c, 0x0, 1, 0, 7, .rws, 0x3c⟩

def F.WRC_INH_CTL.PES_TH : Field := ⟨0xc00010, 0x0, 1, 0, 10, .rws, 0x32⟩
def F.WRC_INH_CTL.PES_CNT : Field := ⟨0xc00010, 0x0, 1, 12, 4, .rws, 0x2⟩
def F.WRC_INH_CTL.RESUME_CNT : Field := ⟨0xc00010, 0x0, 1, 16, 8, .rws, 0x8⟩
def F.WRC_INH_CTL.SHOCK_EN : Field := ⟨0xc00010, 0x0, 1, 24, 1, .rws, 0x1⟩
def F.WRC_INH_CTL.ACC_EN : Field := ⟨0xc00010, 0x0, 1, 25, 1, .rws, 0x1⟩

def F.WRC_STAT.STOPPED_ONLY : Field := ⟨0xc00014, 0x0, 1, 0, 1, .w1c, 0x0⟩
def F.WRC_STAT.INH_PES : Field := ⟨0xc00014, 0x0, 1, 2, 1, .w1c, 0x0⟩
def F.WRC_STAT.INH_SHOCK : Field := ⟨0xc00014, 0x0, 1, 3, 1, .w1c, 0x0⟩
def F.WRC_STAT.INH_ACC : Field := ⟨0xc00014, 0x0, 1, 4, 1, .w1c, 0x0⟩
def F.WRC_STAT.INH_SWS : Field := ⟨0xc00014, 0x0, 1, 5, 1, .w1c, 0x0⟩
def F.WRC_STAT.TRUNC : Field := ⟨0xc00014, 0x0, 1, 6, 1, .w1c, 0x0⟩
def F.WRC_STAT.SB_ERR : Field := ⟨0xc00014, 0x0, 1, 7, 1, .w1c, 0x0⟩
def F.WRC_STAT.SB_BUSY : Field := ⟨0xc00014, 0x0, 1, 29, 1, .ro, 0x0⟩
def F.WRC_STAT.INHIBIT : Field := ⟨0xc00014, 0x0, 1, 30, 1, .ro, 0x0⟩
def F.WRC_STAT.WRITING : Field := ⟨0xc00014, 0x0, 1, 31, 1, .ro, 0x0⟩

def F.WRC_LOCK_LO.LOCK : Field := ⟨0xc00018, 0x0, 1, 0, 32, .ro, 0x0⟩

def F.WRC_LOCK_HI.LOCK : Field := ⟨0xc0001c, 0x0, 1, 0, 32, .ro, 0x0⟩

def F.WRC_CNT0.REINST : Field := ⟨0xc00020, 0x0, 1, 0, 16, .rc, 0x0⟩
def F.WRC_CNT0.LETS : Field := ⟨0xc00020, 0x0, 1, 16, 16, .rc, 0x0⟩

def F.WRC_CNT1.SLACK_HI : Field := ⟨0xc00024, 0x0, 1, 0, 8, .rc, 0x0⟩
def F.WRC_CNT1.TRUNC_CNT : Field := ⟨0xc00024, 0x0, 1, 8, 8, .rc, 0x0⟩
def F.WRC_CNT1.INH_EVT : Field := ⟨0xc00024, 0x0, 1, 16, 16, .rc, 0x0⟩

def F.WRC_SB_CTL.SB_GO : Field := ⟨0xc00030, 0x0, 1, 0, 1, .wo, 0x0⟩
def F.WRC_SB_CTL.LINK_MASK : Field := ⟨0xc00030, 0x0, 1, 8, 8, .rw, 0xff⟩

def F.WRC_SB_STAT.FLAGS : Field := ⟨0xc00040, 0x4, 8, 0, 8, .ro, 0x0⟩
def F.WRC_SB_STAT.TEMP : Field := ⟨0xc00040, 0x4, 8, 8, 8, .ro, 0x0⟩

def F.WRC_IW.IW : Field := ⟨0xc00100, 0x4, 64, 0, 6, .rw, 0x20⟩
def F.WRC_IW.OS_AMP : Field := ⟨0xc00100, 0x4, 64, 8, 4, .rw, 0x0⟩
def F.WRC_IW.OS_DUR : Field := ⟨0xc00100, 0x4, 64, 12, 4, .rw, 0x0⟩

def F.WRC_PC.PC1 : Field := ⟨0xc00200, 0x4, 64, 0, 6, .rw, 0x0⟩
def F.WRC_PC.PC2 : Field := ⟨0xc00200, 0x4, 64, 8, 6, .rw, 0x0⟩
def F.WRC_PC.PC3 : Field := ⟨0xc00200, 0x4, 64, 16, 6, .rw, 0x0⟩

/-! ## RDC (04_read_channel.md) -/

def F.RDC_CH_CTL.EN : Field := ⟨0xd00000, 0x1000, 64, 0, 1, .rw, 0x0⟩
def F.RDC_CH_CTL.DARK : Field := ⟨0xd00000, 0x1000, 64, 1, 1, .ro, 0x0⟩
def F.RDC_CH_CTL.CAL_DEFAULT : Field := ⟨0xd00000, 0x1000, 64, 2, 1, .ro, 0x0⟩

def F.RDC_GAIN_CTL.GAIN : Field := ⟨0xd00004, 0x1000, 64, 0, 8, .rws, 0x30⟩
def F.RDC_GAIN_CTL.AGC_TGT : Field := ⟨0xd00004, 0x1000, 64, 24, 8, .rws, 0x40⟩

def F.RDC_CTF_CTL.BOOST : Field := ⟨0xd00008, 0x1000, 64, 0, 5, .rws, 0xc⟩
def F.RDC_CTF_CTL.RATIO : Field := ⟨0xd00008, 0x1000, 64, 8, 6, .rws, 0x26⟩

def F.RDC_BIAS_CTL.OFFSET : Field := ⟨0xd0000c, 0x1000, 64, 0, 10, .rws, 0x0⟩
def F.RDC_BIAS_CTL.ASYM : Field := ⟨0xd0000c, 0x1000, 64, 16, 10, .rws, 0x0⟩

def F.RDC_TIM_CTL.KI : Field := ⟨0xd00010, 0x1000, 64, 0, 4, .rws, 0x9⟩
def F.RDC_TIM_CTL.KP : Field := ⟨0xd00010, 0x1000, 64, 4, 4, .rws, 0x4⟩
def F.RDC_TIM_CTL.KI_ACQ : Field := ⟨0xd00010, 0x1000, 64, 8, 4, .rws, 0x6⟩
def F.RDC_TIM_CTL.KP_ACQ : Field := ⟨0xd00010, 0x1000, 64, 12, 4, .rws, 0x2⟩

def F.RDC_CH_STAT.FREQ : Field := ⟨0xd00014, 0x1000, 64, 0, 16, .ro, 0x0⟩
def F.RDC_CH_STAT.PERR_RMS : Field := ⟨0xd00014, 0x1000, 64, 16, 12, .ro, 0x0⟩
def F.RDC_CH_STAT.FROZEN : Field := ⟨0xd00014, 0x1000, 64, 28, 1, .ro, 0x0⟩
def F.RDC_CH_STAT.ADAPTIVE : Field := ⟨0xd00014, 0x1000, 64, 29, 1, .ro, 0x0⟩
def F.RDC_CH_STAT.HUNT : Field := ⟨0xd00014, 0x1000, 64, 30, 1, .ro, 0x0⟩
def F.RDC_CH_STAT.LOCK : Field := ⟨0xd00014, 0x1000, 64, 31, 1, .ro, 0x0⟩

def F.RDC_DEF_CTL.DROP_TH : Field := ⟨0xd00018, 0x1000, 64, 0, 7, .rws, 0x20⟩
def F.RDC_DEF_CTL.TA_TH : Field := ⟨0xd00018, 0x1000, 64, 8, 8, .rws, 0x18⟩
def F.RDC_DEF_CTL.QUAL_TH : Field := ⟨0xd00018, 0x1000, 64, 16, 8, .rws, 0x28⟩
def F.RDC_DEF_CTL.DEF_EXT : Field := ⟨0xd00018, 0x1000, 64, 24, 6, .rws, 0x10⟩

def F.RDC_CH_CNT0.RM_MISS : Field := ⟨0xd0001c, 0x1000, 64, 0, 16, .rc, 0x0⟩
def F.RDC_CH_CNT0.DEF_EVT : Field := ⟨0xd0001c, 0x1000, 64, 16, 16, .rc, 0x0⟩

def F.RDC_CH_CNT1.ERASED : Field := ⟨0xd00020, 0x1000, 64, 0, 8, .rc, 0x0⟩
def F.RDC_CH_CNT1.REFRAME_FAIL : Field := ⟨0xd00020, 0x1000, 64, 8, 8, .rc, 0x0⟩
def F.RDC_CH_CNT1.REFRAME_OK : Field := ⟨0xd00020, 0x1000, 64, 16, 8, .rc, 0x0⟩
def F.RDC_CH_CNT1.SM_ALIGN : Field := ⟨0xd00020, 0x1000, 64, 24, 8, .rc, 0x0⟩

def F.RDC_FIR_TAP.TAP (k : Nat) : Field := ⟨0xd00040 + 4 * k, 0x1000, 64, 0, 12, .rws, if k = 6 then 0x400 else 0⟩

def F.RDC_CFG.MODE : Field := ⟨0xd40000, 0x0, 1, 0, 2, .rws, 0x0⟩
def F.RDC_CFG.DARK_EN : Field := ⟨0xd40000, 0x0, 1, 3, 1, .rws, 0x0⟩
def F.RDC_CFG.DARK_GRP : Field := ⟨0xd40000, 0x0, 1, 4, 4, .rws, 0x0⟩
def F.RDC_CFG.CAPTURE : Field := ⟨0xd40000, 0x0, 1, 8, 1, .rw, 0x0⟩

def F.RDC_CMD.HANDOFF : Field := ⟨0xd40004, 0x0, 1, 1, 1, .wo, 0x0⟩
def F.RDC_CMD.CAL_GO : Field := ⟨0xd40004, 0x0, 1, 2, 1, .wo, 0x0⟩
def F.RDC_CMD.CAL_GRP : Field := ⟨0xd40004, 0x0, 1, 4, 4, .wo, 0x0⟩

def F.RDC_ITER_CTL.IT1 : Field := ⟨0xd40008, 0x0, 1, 0, 5, .rws, 0xc⟩
def F.RDC_ITER_CTL.IT2 : Field := ⟨0xd40008, 0x0, 1, 8, 5, .rws, 0x8⟩
def F.RDC_ITER_CTL.IT3 : Field := ⟨0xd40008, 0x0, 1, 16, 5, .rws, 0x4⟩
def F.RDC_ITER_CTL.PASSES : Field := ⟨0xd40008, 0x0, 1, 24, 2, .rws, 0x3⟩
def F.RDC_ITER_CTL.LLR_SCALE : Field := ⟨0xd40008, 0x0, 1, 28, 4, .rws, 0x8⟩

def F.RDC_ADAPT_CTL.AGC_MU : Field := ⟨0xd4000c, 0x0, 1, 0, 4, .rws, 0x9⟩
def F.RDC_ADAPT_CTL.FIR_MU : Field := ⟨0xd4000c, 0x0, 1, 4, 4, .rws, 0xb⟩
def F.RDC_ADAPT_CTL.OFS_MU : Field := ⟨0xd4000c, 0x0, 1, 8, 4, .rws, 0xa⟩
def F.RDC_ADAPT_CTL.ASYM_MU : Field := ⟨0xd4000c, 0x0, 1, 12, 4, .rws, 0xc⟩
def F.RDC_ADAPT_CTL.FRZ_HOLD : Field := ⟨0xd4000c, 0x0, 1, 24, 8, .rws, 0x40⟩

def F.RDC_TGT.G1 : Field := ⟨0xd40010, 0x0, 1, 0, 8, .rws, 0x30⟩
def F.RDC_TGT.G2 : Field := ⟨0xd40010, 0x0, 1, 8, 8, .rws, 0xfa⟩
def F.RDC_TGT.G3 : Field := ⟨0xd40010, 0x0, 1, 16, 8, .rws, 0xea⟩
def F.RDC_TGT.G4 : Field := ⟨0xd40010, 0x0, 1, 24, 8, .rws, 0xf6⟩

def F.RDC_NPRED.P1 : Field := ⟨0xd40014, 0x0, 1, 0, 8, .rws, 0x33⟩
def F.RDC_NPRED.P2 : Field := ⟨0xd40014, 0x0, 1, 8, 8, .rws, 0xd⟩
def F.RDC_NPRED.P3 : Field := ⟨0xd40014, 0x0, 1, 16, 8, .rws, 0xfc⟩

def F.RDC_STAT.STOPPED_ONLY : Field := ⟨0xd40018, 0x0, 1, 0, 1, .w1c, 0x0⟩
def F.RDC_STAT.CMD_REFUSED : Field := ⟨0xd40018, 0x0, 1, 1, 1, .w1c, 0x0⟩
def F.RDC_STAT.TOO_MANY : Field := ⟨0xd40018, 0x0, 1, 2, 1, .w1c, 0x0⟩
def F.RDC_STAT.ADAPT_BOUND : Field := ⟨0xd40018, 0x0, 1, 3, 1, .w1c, 0x0⟩
def F.RDC_STAT.CAL_FAIL : Field := ⟨0xd40018, 0x0, 1, 13, 1, .ro, 0x0⟩
def F.RDC_STAT.CAL_BUSY : Field := ⟨0xd40018, 0x0, 1, 14, 1, .ro, 0x0⟩
def F.RDC_STAT.HANDOFF_DONE : Field := ⟨0xd40018, 0x0, 1, 15, 1, .ro, 0x0⟩
def F.RDC_STAT.CAL_DONE : Field := ⟨0xd40018, 0x0, 1, 16, 16, .ro, 0x0⟩

def F.RDC_CAL_FAIL.CAL_FAILED : Field := ⟨0xd4001c, 0x0, 1, 0, 16, .ro, 0x0⟩

/-! ## SRV (06_servo_motion_pace.md) -/

def F.SRV_CTL.DIB_TH : Field := ⟨0xe00000, 0x0, 1, 0, 8, .rws, 0x40⟩
def F.SRV_CTL.WRAP0_OFS : Field := ⟨0xe00000, 0x0, 1, 16, 10, .rws, 0x64⟩

def F.SRV_HEAD.PES : Field := ⟨0xe00004, 0x0, 1, 0, 16, .ro, 0x0⟩
def F.SRV_HEAD.PHASE : Field := ⟨0xe00004, 0x0, 1, 16, 3, .ro, 0x0⟩
def F.SRV_HEAD.VALID : Field := ⟨0xe00004, 0x0, 1, 31, 1, .ro, 0x0⟩

def F.SRV_EST0.SPREAD : Field := ⟨0xe00008, 0x0, 1, 0, 16, .ro, 0x0⟩
def F.SRV_EST0.OFFSET : Field := ⟨0xe00008, 0x0, 1, 16, 16, .ro, 0x0⟩

def F.SRV_EST1.SKEW : Field := ⟨0xe0000c, 0x0, 1, 0, 16, .ro, 0x0⟩
def F.SRV_EST1.EST_VALID : Field := ⟨0xe0000c, 0x0, 1, 31, 1, .ro, 0x0⟩

def F.SRV_EST2.COARSE : Field := ⟨0xe00010, 0x0, 1, 0, 20, .ro, 0x0⟩

def F.SRV_CNT.LPOS_JUMP : Field := ⟨0xe00014, 0x0, 1, 0, 8, .rc, 0x0⟩
def F.SRV_CNT.LPOS_MISS : Field := ⟨0xe00014, 0x0, 1, 8, 8, .rc, 0x0⟩
def F.SRV_CNT.SYNC_MISS : Field := ⟨0xe00014, 0x0, 1, 16, 16, .rc, 0x0⟩

def F.SRV_STAT.STOPPED_ONLY : Field := ⟨0xe00018, 0x0, 1, 0, 1, .w1c, 0x0⟩

def F.SRV_CH.PES : Field := ⟨0xe00100, 0x4, 64, 0, 16, .ro, 0x0⟩
def F.SRV_CH.TRK_VALID : Field := ⟨0xe00100, 0x4, 64, 28, 1, .ro, 0x0⟩
def F.SRV_CH.LPOS_OK : Field := ⟨0xe00100, 0x4, 64, 29, 1, .ro, 0x0⟩
def F.SRV_CH.POS_VALID : Field := ⟨0xe00100, 0x4, 64, 30, 1, .ro, 0x0⟩
def F.SRV_CH.SYNC_OK : Field := ⟨0xe00100, 0x4, 64, 31, 1, .ro, 0x0⟩

/-! ## MOT (06_servo_motion_pace.md) -/

def F.MOT_CTL.RUN : Field := ⟨0xf00000, 0x0, 1, 0, 1, .rw, 0x0⟩
def F.MOT_CTL.LINK_EN : Field := ⟨0xf00000, 0x0, 1, 2, 1, .rw, 0x0⟩
def F.MOT_CTL.BUDGET : Field := ⟨0xf00000, 0x0, 1, 12, 12, .rws, 0xfa0⟩
def F.MOT_CTL.POLES : Field := ⟨0xf00000, 0x0, 1, 24, 4, .rws, 0x4⟩

def F.MOT_LOOP.CLOSE : Field := ⟨0xf00004, 0x0, 1, 0, 5, .rw, 0x0⟩
def F.MOT_LOOP.STATE : Field := ⟨0xf00004, 0x0, 1, 16, 5, .ro, 0x0⟩

def F.MOT_STAT.STOPPED_ONLY : Field := ⟨0xf00008, 0x0, 1, 0, 1, .w1c, 0x0⟩
def F.MOT_STAT.SAT : Field := ⟨0xf00008, 0x0, 1, 1, 1, .w1c, 0x0⟩
def F.MOT_STAT.LOOP_REFUSED : Field := ⟨0xf00008, 0x0, 1, 2, 1, .w1c, 0x0⟩
def F.MOT_STAT.WRAP_REFUSED : Field := ⟨0xf00008, 0x0, 1, 3, 1, .w1c, 0x0⟩
def F.MOT_STAT.OVERRUN : Field := ⟨0xf00008, 0x0, 1, 4, 1, .w1c, 0x0⟩
def F.MOT_STAT.BAD_STEP : Field := ⟨0xf00008, 0x0, 1, 5, 1, .w1c, 0x0⟩
def F.MOT_STAT.LINK_ERR : Field := ⟨0xf00008, 0x0, 1, 6, 1, .w1c, 0x0⟩
def F.MOT_STAT.ACC_FAIL : Field := ⟨0xf00008, 0x0, 1, 7, 1, .w1c, 0x0⟩
def F.MOT_STAT.RUNNING : Field := ⟨0xf00008, 0x0, 1, 30, 1, .ro, 0x0⟩
def F.MOT_STAT.FAULT_STOP : Field := ⟨0xf00008, 0x0, 1, 31, 1, .ro, 0x0⟩

def F.MOT_WRAP.W : Field := ⟨0xf0000c, 0x0, 1, 0, 9, .rw, 0x0⟩

def F.MOT_ACC.ACC_LIM : Field := ⟨0xf00010, 0x0, 1, 0, 8, .rws, 0x32⟩
def F.MOT_ACC.READ_DIV : Field := ⟨0xf00010, 0x0, 1, 8, 8, .rws, 0x8⟩

def F.MOT_TENS0.T0 : Field := ⟨0xf00014, 0x0, 1, 0, 16, .rw, 0x352⟩
def F.MOT_TENS0.T_MIN : Field := ⟨0xf00014, 0x0, 1, 16, 16, .rws, 0x1f4⟩

def F.MOT_TENS1.SPREAD_K : Field := ⟨0xf00018, 0x0, 1, 0, 16, .rws, 0x0⟩
def F.MOT_TENS1.T_MAX : Field := ⟨0xf00018, 0x0, 1, 16, 16, .rws, 0x4b0⟩

def F.MOT_HOLD.HOLD : Field := ⟨0xf00020, 0x4, 6, 0, 16, .rw, 0x0⟩

def F.MOT_CNT.SHOCK_CNT : Field := ⟨0xf00040, 0x0, 1, 0, 8, .rc, 0x0⟩
def F.MOT_CNT.DI_ERR : Field := ⟨0xf00040, 0x0, 1, 8, 8, .rc, 0x0⟩
def F.MOT_CNT.OVR_CNT : Field := ⟨0xf00040, 0x0, 1, 16, 16, .rc, 0x0⟩

def F.MOT_STG.LEN : Field := ⟨0xf00100, 0x4, 32, 0, 4, .rws, 0x0⟩
def F.MOT_STG.EXP : Field := ⟨0xf00100, 0x4, 32, 4, 5, .rws, 0xf⟩
def F.MOT_STG.OWNER : Field := ⟨0xf00100, 0x4, 32, 12, 3, .rws, 0x7⟩
def F.MOT_STG.KIND : Field := ⟨0xf00100, 0x4, 32, 15, 1, .rws, 0x0⟩

def F.PACE_CTL.EN : Field := ⟨0xf00800, 0x0, 1, 0, 1, .rw, 0x0⟩
def F.PACE_CTL.MODE : Field := ⟨0xf00800, 0x0, 1, 1, 1, .rws, 0x0⟩
def F.PACE_CTL.PACE_CLASS : Field := ⟨0xf00800, 0x0, 1, 4, 4, .rws, 0x0⟩
def F.PACE_CTL.ACC : Field := ⟨0xf00800, 0x0, 1, 8, 5, .rws, 0x10⟩
def F.PACE_CTL.VMAX : Field := ⟨0xf00800, 0x0, 1, 16, 13, .rws, 0x1f40⟩

def F.PACE_LAW.KP : Field := ⟨0xf00804, 0x0, 1, 0, 8, .rws, 0x14⟩
def F.PACE_LAW.KI : Field := ⟨0xf00804, 0x0, 1, 8, 8, .rws, 0x3⟩
def F.PACE_LAW.STOP_N : Field := ⟨0xf00804, 0x0, 1, 16, 8, .rws, 0x10⟩
def F.PACE_LAW.RESUME_YLM : Field := ⟨0xf00804, 0x0, 1, 24, 8, .rws, 0x4⟩

def F.PACE_DEPTH.HDEPTH : Field := ⟨0xf00808, 0x0, 1, 0, 16, .rws, 0x400⟩

def F.PACE_MAN.SPEED : Field := ⟨0xf0080c, 0x0, 1, 0, 16, .rw, 0x0⟩

def F.PACE_QSEL.QUEUE0 : Field := ⟨0xf00810, 0x4, 4, 0, 9, .rws, 0x0⟩
def F.PACE_QSEL.VALID0 : Field := ⟨0xf00810, 0x4, 4, 15, 1, .rws, 0x0⟩
def F.PACE_QSEL.QUEUE1 : Field := ⟨0xf00810, 0x4, 4, 16, 9, .rws, 0x0⟩
def F.PACE_QSEL.VALID1 : Field := ⟨0xf00810, 0x4, 4, 31, 1, .rws, 0x0⟩

def F.PACE_STAT.FILL : Field := ⟨0xf00820, 0x0, 1, 0, 8, .ro, 0x0⟩
def F.PACE_STAT.STOPPED_ONLY : Field := ⟨0xf00820, 0x0, 1, 8, 1, .w1c, 0x0⟩
def F.PACE_STAT.TARGET : Field := ⟨0xf00820, 0x0, 1, 16, 13, .ro, 0x0⟩
def F.PACE_STAT.STOPPED : Field := ⟨0xf00820, 0x0, 1, 31, 1, .ro, 0x0⟩

def F.PACE_CNT.FORCED : Field := ⟨0xf00824, 0x0, 1, 0, 16, .rc, 0x0⟩
def F.PACE_CNT.BACKHITCH : Field := ⟨0xf00824, 0x0, 1, 16, 16, .rc, 0x0⟩

/-! ## TEAM (14_teams.md) -/

def F.TEAM_CTL.RUN : Field := ⟨0x1000000, 0x0, 1, 0, 1, .rw, 0x0⟩
def F.TEAM_CTL.PORT : Field := ⟨0x1000000, 0x0, 1, 1, 1, .rws, 0x0⟩

def F.TEAM_STAT.STOPPED_ONLY : Field := ⟨0x1000004, 0x0, 1, 0, 1, .w1c, 0x0⟩
def F.TEAM_STAT.ABORT_SEEN : Field := ⟨0x1000004, 0x0, 1, 1, 1, .w1c, 0x0⟩
def F.TEAM_STAT.STRIPE_LOST_SEEN : Field := ⟨0x1000004, 0x0, 1, 2, 1, .w1c, 0x0⟩
def F.TEAM_STAT.TXR_BAD : Field := ⟨0x1000004, 0x0, 1, 3, 1, .w1c, 0x0⟩
def F.TEAM_STAT.BUSY : Field := ⟨0x1000004, 0x0, 1, 15, 1, .ro, 0x0⟩
def F.TEAM_STAT.UNREACH_ID : Field := ⟨0x1000004, 0x0, 1, 16, 16, .ro, 0x0⟩

def F.TEAM_CNT0.LOSTS : Field := ⟨0x1000008, 0x0, 1, 0, 8, .rc, 0x0⟩
def F.TEAM_CNT0.ABORTS : Field := ⟨0x1000008, 0x0, 1, 8, 8, .rc, 0x0⟩
def F.TEAM_CNT0.STRIPES : Field := ⟨0x1000008, 0x0, 1, 16, 16, .rc, 0x0⟩

def F.TEAM_CNT1.UNKNOWN : Field := ⟨0x100000c, 0x0, 1, 0, 16, .rc, 0x0⟩
def F.TEAM_CNT1.REBUILT : Field := ⟨0x100000c, 0x0, 1, 16, 16, .rc, 0x0⟩

def F.TEAM_SLOT.STATE : Field := ⟨0x1000100, 0x10, 2, 0, 4, .ro, 0x0⟩
def F.TEAM_SLOT.SECOND : Field := ⟨0x1000100, 0x10, 2, 29, 1, .ro, 0x0⟩
def F.TEAM_SLOT.LEADER : Field := ⟨0x1000100, 0x10, 2, 30, 1, .ro, 0x0⟩
def F.TEAM_SLOT.ACT : Field := ⟨0x1000100, 0x10, 2, 31, 1, .rws, 0x0⟩

def F.TEAM_NEXT.STRIPE : Field := ⟨0x1000104, 0x10, 2, 0, 32, .ro, 0x0⟩

def F.TEAM_LOW.LOW : Field := ⟨0x1000108, 0x10, 2, 0, 32, .ro, 0x0⟩

end Sys2Proof.Machine
end

