-- ==== Sys2Proof/Machine/RegTable.lean ====
section
/-!
DEFINITION. The register map: for each block of BAR0 (R370) its registers, each the list of its fields, and the word a
register holds after VIN power-on (R2).
-/
namespace Sys2Proof.Machine

/-- A register, or an array of registers, with its fields. -/
structure RegDesc where
  base : Nat
  stride : Nat
  count : Nat
  fields : List Field
  deriving DecidableEq, Repr

/-- BOOT: 16_boot_reset.md -/
def RegTable.boot : List RegDesc :=
  [⟨0x0, 0x0, 1, [F.BOOT_PART.GRADE, F.BOOT_PART.SIREV, F.BOOT_PART.PART]⟩,
   ⟨0x4, 0x0, 1, [F.BOOT_SERL.SER_LO]⟩,
   ⟨0x8, 0x0, 1, [F.BOOT_SERH.SER_HI]⟩,
   ⟨0x20, 0x0, 1, [F.BOOT_IDKH.IDKH]⟩,
   ⟨0xc, 0x0, 1, [F.BOOT_STAT.BEGUN, F.BOOT_STAT.KIND, F.BOOT_STAT.DONE, F.BOOT_STAT.FLASH_ERR, F.BOOT_STAT.FL_REFUSED, F.BOOT_STAT.ALT_SLOT, F.BOOT_STAT.ROM_ONLY, F.BOOT_STAT.COMPLETE]⟩,
   ⟨0x10, 0x0, 1, [F.BOOT_ALT.CLR, F.BOOT_ALT.STICKY]⟩,
   ⟨0x14, 0x0, 1, [F.BOOT_WDOG.PERIOD, F.BOOT_WDOG.KICK]⟩,
   ⟨0x18, 0x0, 1, [F.BOOT_FLOOR.FLOOR]⟩,
   ⟨0x1c, 0x0, 1, [F.BOOT_PFLOOR.PFLOOR]⟩,
   ⟨0x24, 0x0, 1, [F.BOOT_FL_ADDR.ADDR]⟩,
   ⟨0x28, 0x0, 1, [F.BOOT_FL_CMD.OP, F.BOOT_FL_CMD.BUSY]⟩]

/-- PWR: 15_power.md -/
def RegTable.pwr : List RegDesc :=
  [⟨0x100000, 0x0, 1, [F.PWR_CTL.AUTO, F.PWR_CTL.QDR_POL, F.PWR_CTL.RING_KEEP]⟩,
   ⟨0x100004, 0x0, 1, [F.PWR_T1.T1]⟩,
   ⟨0x100008, 0x0, 1, [F.PWR_T2.T2]⟩,
   ⟨0x10000c, 0x0, 1, [F.PWR_T3.T3]⟩,
   ⟨0x100010, 0x0, 1, [F.PWR_DROP.DROP_S]⟩,
   ⟨0x100014, 0x0, 1, [F.PWR_CMD.TARGET, F.PWR_CMD.GO]⟩,
   ⟨0x100018, 0x0, 1, [F.PWR_STAT.STATE, F.PWR_STAT.LATCHED, F.PWR_STAT.WLOG_HEAD, F.PWR_STAT.LAST_WAKE, F.PWR_STAT.STOPPED_ONLY, F.PWR_STAT.IMG_LOST, F.PWR_STAT.QDR_DROPPED, F.PWR_STAT.ABANDONED, F.PWR_STAT.CMD_REFUSED]⟩,
   ⟨0x100020, 0x0, 1, [F.PWR_CNT.ABANDON_CNT, F.PWR_CNT.NAPS]⟩,
   ⟨0x100024, 0x0, 1, [F.PWR_NAPIMG.HANDLE]⟩,
   ⟨0x100100, 0x0, 1, [F.SMP_CTL.SETTLE, F.SMP_CTL.LOG_ALL]⟩,
   ⟨0x100104, 0x0, 1, [F.SMP_PERIOD.PERIOD]⟩,
   ⟨0x100108, 0x0, 1, [F.SMP_STAT.TAIL, F.SMP_STAT.HEAD, F.SMP_STAT.SKIPPED, F.SMP_STAT.BUS_ERR, F.SMP_STAT.SUPPLY_ERR, F.SMP_STAT.OVERWRITE]⟩,
   ⟨0x100040, 0x0, 1, [F.PWR_GPIO.OUT, F.PWR_GPIO.OE, F.PWR_GPIO.IN]⟩]

/-- UMP: 13_ring_umpire.md -/
def RegTable.ump : List RegDesc :=
  [⟨0x200000, 0x0, 1, [F.UMP_CTL.RUN, F.UMP_CTL.CORE]⟩,
   ⟨0x200004, 0x0, 1, [F.UMP_LOG.HANDLE]⟩,
   ⟨0x200008, 0x0, 1, [F.UMP_PTR.HEAD, F.UMP_PTR.TAIL]⟩,
   ⟨0x20000c, 0x0, 1, [F.UMP_CNT.DROPPED, F.UMP_CNT.FORWARDED]⟩,
   ⟨0x200010, 0x0, 1, [F.UMP_STAT.STOPPED_ONLY]⟩]

/-- HST: 12_host_port.md -/
def RegTable.hst : List RegDesc :=
  [⟨0x300000, 0x0, 1, [F.HST_CTL.RUN, F.HST_CTL.DBG_EN, F.HST_CTL.BATCH, F.HST_CTL.WI_CLASS]⟩,
   ⟨0x300004, 0x0, 1, [F.HST_STAT.STOPPED_ONLY, F.HST_STAT.ACC_ERR, F.HST_STAT.DB_ERR, F.HST_STAT.FLR_SEEN, F.HST_STAT.WI_EMPTY, F.HST_STAT.CFG_REFUSED, F.HST_STAT.WIDTH, F.HST_STAT.SPEED, F.HST_STAT.LINK_UP]⟩,
   ⟨0x300008, 0x0, 1, [F.HST_CNT.MALFORMED, F.HST_CNT.ITEMS]⟩,
   ⟨0x300100, 0x4, 16, [F.HST_FN.NQ, F.HST_FN.CRC_DEV, F.HST_FN.ACTIVE]⟩,
   ⟨0x302000, 0x20, 256, [F.HST_SQB_LO.ADDR]⟩,
   ⟨0x302004, 0x20, 256, [F.HST_SQB_HI.ADDR]⟩,
   ⟨0x302008, 0x20, 256, [F.HST_CQB_LO.ADDR]⟩,
   ⟨0x30200c, 0x20, 256, [F.HST_CQB_HI.ADDR]⟩,
   ⟨0x302010, 0x20, 256, [F.HST_QCFG.VEC, F.HST_QCFG.SQ_LOG, F.HST_QCFG.CQ_LOG, F.HST_QCFG.EN]⟩,
   ⟨0x302014, 0x20, 256, [F.HST_QSTAT.SQ_HEAD, F.HST_QSTAT.CQ_TAIL]⟩,
   ⟨0x302018, 0x20, 256, [F.HST_QCOAL.COAL_CNT, F.HST_QCOAL.COAL_US]⟩]

/-- RNG: 13_ring_umpire.md -/
def RegTable.rng : List RegDesc :=
  [⟨0x400000, 0x0, 1, [F.RNG_CTL.RUN, F.RNG_CTL.EAST_EN, F.RNG_CTL.WEST_EN, F.RNG_CTL.ID]⟩,
   ⟨0x400004, 0x0, 1, [F.RNG_PORTE.STATE, F.RNG_PORTE.NBR_ID]⟩,
   ⟨0x400008, 0x0, 1, [F.RNG_PORTW.STATE, F.RNG_PORTW.NBR_ID]⟩,
   ⟨0x40000c, 0x0, 1, [F.RNG_SERVE.GO, F.RNG_SERVE.PORT, F.RNG_SERVE.REPEAT, F.RNG_SERVE.HOPS, F.RNG_SERVE.SERVE_ID]⟩,
   ⟨0x400010, 0x0, 1, [F.RNG_STAT.STOPPED_ONLY, F.RNG_STAT.ID_CLASH, F.RNG_STAT.SERVE_REFUSED]⟩,
   ⟨0x400014, 0x0, 1, [F.RNG_CNT.FOLDS, F.RNG_CNT.STOMPS, F.RNG_CNT.RESENDS]⟩]

/-- CORE: 09_laruf_isa.md -/
def RegTable.core : List RegDesc :=
  [⟨0x500000, 0x0, 1, [F.CORE_LOAD_H.HANDLE]⟩,
   ⟨0x500004, 0x0, 1, [F.CORE_LOAD_L.LENGTH]⟩,
   ⟨0x500008, 0x0, 1, [F.CORE_LOAD_CTL.TARGETS, F.CORE_LOAD_CTL.GO]⟩,
   ⟨0x50000c, 0x0, 1, [F.CORE_LOAD_STAT.RESULT, F.CORE_LOAD_STAT.BUSY]⟩,
   ⟨0x500010, 0x0, 1, [F.CORE_CFG.GRACE]⟩,
   ⟨0x500014, 0x0, 1, [F.CORE_WSEL.CORE, F.CORE_WSEL.SPACE]⟩,
   ⟨0x500100, 0x10, 16, [F.CORE_CTL.RUN, F.CORE_CTL.FORCE, F.CORE_CTL.SIGNAL]⟩,
   ⟨0x500104, 0x10, 16, [F.CORE_STAT.STATE, F.CORE_STAT.IMG_OK, F.CORE_STAT.START_REFUSED, F.CORE_STAT.STOPPED_ONLY, F.CORE_STAT.LEVEL, F.CORE_STAT.FCODE]⟩,
   ⟨0x500108, 0x10, 16, [F.CORE_FAULT.FPC, F.CORE_FAULT.FSTAT]⟩,
   ⟨0x50010c, 0x10, 16, [F.CORE_IMGV.VERSION]⟩,
   ⟨0x500018, 0x0, 1, [F.CORE_TXR_BASE.HANDLE]⟩,
   ⟨0x50001c, 0x0, 1, [F.CORE_TXCNT.CAPACITY, F.CORE_TXCNT.CONFLICTS, F.CORE_TXCNT.COMMITS]⟩,
   ⟨0x500020, 0x0, 1, [F.CORE_TXSTAT.STOPPED_ONLY]⟩]

/-- QUE: 08_memory_pools_queues.md -/
def RegTable.que : List RegDesc :=
  [⟨0x600000, 0x0, 1, [F.QUE_GSTAT.CFG_REFUSED, F.QUE_GSTAT.LAST_Q, F.QUE_GSTAT.QRESET]⟩,
   ⟨0x600004, 0x0, 1, [F.QUE_FLOW.PIN, F.QUE_FLOW.STOPPED_ONLY, F.QUE_FLOW.FORCE]⟩,
   ⟨0x610000, 0x10, 512, [F.QUE_CFG.BASE, F.QUE_CFG.DEPTH, F.QUE_CFG.FLOW_SEL, F.QUE_CFG.FLOW_EN, F.QUE_CFG.EN]⟩,
   ⟨0x610004, 0x10, 512, [F.QUE_WM.LOW, F.QUE_WM.HIGH]⟩,
   ⟨0x610008, 0x10, 512, [F.QUE_STAT.ITEMS, F.QUE_STAT.ABOVE]⟩]

/-- POOL: 08_memory_pools_queues.md -/
def RegTable.pool : List RegDesc :=
  [⟨0x700000, 0x0, 1, [F.POOL_CTL.RUN]⟩,
   ⟨0x700100, 0x8, 8, [F.POOL_CLASS.BASE, F.POOL_CLASS.NEXT, F.POOL_CLASS.EN]⟩,
   ⟨0x700104, 0x8, 8, [F.POOL_COUNT.COUNT]⟩,
   ⟨0x700200, 0x4, 8, [F.POOL_FREE.FREE]⟩,
   ⟨0x700008, 0x0, 1, [F.POOL_STAT.STOPPED_ONLY, F.POOL_STAT.BAD_FREE_SEEN, F.POOL_STAT.CFG_REFUSED, F.POOL_STAT.IN_USE, F.POOL_STAT.EMPTY_SEEN]⟩,
   ⟨0x70000c, 0x0, 1, [F.POOL_CNT.BAD_OWNER_CNT, F.POOL_CNT.BAD_FREE_CNT]⟩,
   ⟨0x700010, 0x0, 1, [F.POOL_LOG0.HANDLE]⟩,
   ⟨0x700014, 0x0, 1, [F.POOL_LOG1.REQ, F.POOL_LOG1.OWNER, F.POOL_LOG1.STATUS]⟩]

/-- TIL: 08_memory_pools_queues.md -/
def RegTable.til : List RegDesc :=
  [⟨0x800000, 0x0, 1, [F.TIL_CTL.SCRUB_EN, F.TIL_CTL.BUSERR_MODE]⟩,
   ⟨0x800010, 0x4, 8, [F.TIL_REGION.STRONG]⟩,
   ⟨0x800040, 0x0, 1, [F.TIL_STAT.STOPPED_ONLY, F.TIL_STAT.CORRECTED, F.TIL_STAT.POISONED, F.TIL_STAT.LAST_TILE]⟩,
   ⟨0x800044, 0x0, 1, [F.TIL_SCRUB.LAP_MS]⟩,
   ⟨0x800048, 0x0, 1, [F.TIL_SCRUB1.LAP_TILES]⟩,
   ⟨0x80004c, 0x0, 1, [F.TIL_CNT.POIS_CNT, F.TIL_CNT.CORR_CNT]⟩,
   ⟨0x800050, 0x0, 1, [F.TIL_SIZE.DIES, F.TIL_SIZE.TILES]⟩]

/-- CMP: 07_thatch_compression.md -/
def RegTable.cmp : List RegDesc :=
  [⟨0x900000, 0x0, 1, [F.CMP_CTL.RUN, F.CMP_CTL.CLANE_EN, F.CMP_CTL.DLANE_EN, F.CMP_CTL.GAIN_PCT]⟩,
   ⟨0x900004, 0x0, 1, [F.CMP_CTX_BASE.HANDLE]⟩,
   ⟨0x900008, 0x0, 1, [F.CMP_STAT.STOPPED_ONLY, F.CMP_STAT.VFY_MISMATCH, F.CMP_STAT.BAD_BUNDLE, F.CMP_STAT.CTX_BAD, F.CMP_STAT.BUSY]⟩,
   ⟨0x900010, 0x4, 8, [F.CMP_LANE.QUEUED, F.CMP_LANE.SLOT, F.CMP_LANE.ACTIVE, F.CMP_LANE.BOUND]⟩,
   ⟨0x900040, 0x0, 1, [F.CMP_CNT0.NO_GAIN_CNT, F.CMP_CNT0.BUNDLES]⟩,
   ⟨0x900044, 0x0, 1, [F.CMP_CNT1.BAD_CNT, F.CMP_CNT1.VFY_FAIL, F.CMP_CNT1.SWITCHES]⟩]

/-- CIP: 11_cipher_keys.md -/
def RegTable.cip : List RegDesc :=
  [⟨0xa00000, 0x0, 1, [F.CIP_CTL.RUN, F.CIP_CTL.LOCK_IDLE]⟩,
   ⟨0xa00004, 0x0, 1, [F.CIP_LOCK.SLOT, F.CIP_LOCK.FREE, F.CIP_LOCK.HOLDER, F.CIP_LOCK.KSIZE, F.CIP_LOCK.SUSP, F.CIP_LOCK.HELD]⟩,
   ⟨0xa00008, 0x0, 1, [F.CIP_STAT.STOPPED_ONLY, F.CIP_STAT.KEY_GONE_SEEN, F.CIP_STAT.LOCK_FORCED, F.CIP_STAT.BUSY]⟩,
   ⟨0xa0000c, 0x0, 1, [F.CIP_CNT.SUSPENDS, F.CIP_CNT.MESSAGES]⟩,
   ⟨0xa01000, 0x0, 1, [F.KEY_CTL.VOLT_EN, F.KEY_CTL.CLK_EN, F.KEY_CTL.TEMP_EN, F.KEY_CTL.TAMPER_EN, F.KEY_CTL.SECURE]⟩,
   ⟨0xa01004, 0x0, 1, [F.KEY_ALARM.VOLT, F.KEY_ALARM.CLK, F.KEY_ALARM.TEMP, F.KEY_ALARM.TAMPER, F.KEY_ALARM.SECV, F.KEY_ALARM.ALARM]⟩,
   ⟨0xa01008, 0x0, 1, [F.KEY_CNT.BUSY_REFUSED, F.KEY_CNT.UNWRAP_FAIL, F.KEY_CNT.IMPORTS]⟩,
   ⟨0xa01100, 0x10, 72, [F.KEY_SLOT.ENC, F.KEY_SLOT.DEC, F.KEY_SLOT.KSIZE, F.KEY_SLOT.HELD, F.KEY_SLOT.VALID]⟩,
   ⟨0xa01104, 0x10, 72, [F.KEY_TKIDL.TKID_LO]⟩,
   ⟨0xa01108, 0x10, 72, [F.KEY_TKIDH.TKID_HI]⟩]

/-- FMT: 03_tape_codes.md -/
def RegTable.fmt : List RegDesc :=
  [⟨0xb00100, 0x0, 1, [F.FMT_CODE_CTL.C1_MAX_IT, F.FMT_CODE_CTL.C1_SCALE, F.FMT_CODE_CTL.C3_EN, F.FMT_CODE_CTL.QUAD_MIX]⟩,
   ⟨0xb00104, 0x0, 1, [F.FMT_CODE_CNT0.C1_FAIL, F.FMT_CODE_CNT0.POS_ERASED]⟩,
   ⟨0xb00108, 0x0, 1, [F.FMT_CODE_CNT1.C2_CORR, F.FMT_CODE_CNT1.C2_FAIL]⟩,
   ⟨0xb0010c, 0x0, 1, [F.FMT_CODE_CNT2.C3_CORR, F.FMT_CODE_CNT2.C3_FAIL]⟩,
   ⟨0xb00110, 0x0, 1, [F.FMT_STAT.STOPPED_ONLY]⟩]

/-- WRC: 05_write_and_verify.md -/
def RegTable.wrc : List RegDesc :=
  [⟨0xc00000, 0x0, 1, [F.WRC_CTL.RUN, F.WRC_CTL.INH_SW, F.WRC_CTL.AUTO_RESUME, F.WRC_CTL.INH_CLR]⟩,
   ⟨0xc00004, 0x0, 1, [F.WRC_GAP_FWD.GAP]⟩,
   ⟨0xc00008, 0x0, 1, [F.WRC_GAP_REV.GAP]⟩,
   ⟨0xc0000c, 0x0, 1, [F.WRC_VFY_CTL.MARGIN]⟩,
   ⟨0xc00010, 0x0, 1, [F.WRC_INH_CTL.PES_TH, F.WRC_INH_CTL.PES_CNT, F.WRC_INH_CTL.RESUME_CNT, F.WRC_INH_CTL.SHOCK_EN, F.WRC_INH_CTL.ACC_EN]⟩,
   ⟨0xc00014, 0x0, 1, [F.WRC_STAT.STOPPED_ONLY, F.WRC_STAT.INH_PES, F.WRC_STAT.INH_SHOCK, F.WRC_STAT.INH_ACC, F.WRC_STAT.INH_SWS, F.WRC_STAT.TRUNC, F.WRC_STAT.SB_ERR, F.WRC_STAT.SB_BUSY, F.WRC_STAT.INHIBIT, F.WRC_STAT.WRITING]⟩,
   ⟨0xc00018, 0x0, 1, [F.WRC_LOCK_LO.LOCK]⟩,
   ⟨0xc0001c, 0x0, 1, [F.WRC_LOCK_HI.LOCK]⟩,
   ⟨0xc00020, 0x0, 1, [F.WRC_CNT0.REINST, F.WRC_CNT0.LETS]⟩,
   ⟨0xc00024, 0x0, 1, [F.WRC_CNT1.SLACK_HI, F.WRC_CNT1.TRUNC_CNT, F.WRC_CNT1.INH_EVT]⟩,
   ⟨0xc00030, 0x0, 1, [F.WRC_SB_CTL.SB_GO, F.WRC_SB_CTL.LINK_MASK]⟩,
   ⟨0xc00040, 0x4, 8, [F.WRC_SB_STAT.FLAGS, F.WRC_SB_STAT.TEMP]⟩,
   ⟨0xc00100, 0x4, 64, [F.WRC_IW.IW, F.WRC_IW.OS_AMP, F.WRC_IW.OS_DUR]⟩,
   ⟨0xc00200, 0x4, 64, [F.WRC_PC.PC1, F.WRC_PC.PC2, F.WRC_PC.PC3]⟩]

/-- RDC: 04_read_channel.md -/
def RegTable.rdc : List RegDesc :=
  [⟨0xd00000, 0x1000, 64, [F.RDC_CH_CTL.EN, F.RDC_CH_CTL.DARK, F.RDC_CH_CTL.CAL_DEFAULT]⟩,
   ⟨0xd00004, 0x1000, 64, [F.RDC_GAIN_CTL.GAIN, F.RDC_GAIN_CTL.AGC_TGT]⟩,
   ⟨0xd00008, 0x1000, 64, [F.RDC_CTF_CTL.BOOST, F.RDC_CTF_CTL.RATIO]⟩,
   ⟨0xd0000c, 0x1000, 64, [F.RDC_BIAS_CTL.OFFSET, F.RDC_BIAS_CTL.ASYM]⟩,
   ⟨0xd00010, 0x1000, 64, [F.RDC_TIM_CTL.KI, F.RDC_TIM_CTL.KP, F.RDC_TIM_CTL.KI_ACQ, F.RDC_TIM_CTL.KP_ACQ]⟩,
   ⟨0xd00014, 0x1000, 64, [F.RDC_CH_STAT.FREQ, F.RDC_CH_STAT.PERR_RMS, F.RDC_CH_STAT.FROZEN, F.RDC_CH_STAT.ADAPTIVE, F.RDC_CH_STAT.HUNT, F.RDC_CH_STAT.LOCK]⟩,
   ⟨0xd00018, 0x1000, 64, [F.RDC_DEF_CTL.DROP_TH, F.RDC_DEF_CTL.TA_TH, F.RDC_DEF_CTL.QUAL_TH, F.RDC_DEF_CTL.DEF_EXT]⟩,
   ⟨0xd0001c, 0x1000, 64, [F.RDC_CH_CNT0.RM_MISS, F.RDC_CH_CNT0.DEF_EVT]⟩,
   ⟨0xd00020, 0x1000, 64, [F.RDC_CH_CNT1.ERASED, F.RDC_CH_CNT1.REFRAME_FAIL, F.RDC_CH_CNT1.REFRAME_OK, F.RDC_CH_CNT1.SM_ALIGN]⟩,
   ⟨0xd40000, 0x0, 1, [F.RDC_CFG.MODE, F.RDC_CFG.DARK_EN, F.RDC_CFG.DARK_GRP, F.RDC_CFG.CAPTURE]⟩,
   ⟨0xd40004, 0x0, 1, [F.RDC_CMD.HANDOFF, F.RDC_CMD.CAL_GO, F.RDC_CMD.CAL_GRP]⟩,
   ⟨0xd40008, 0x0, 1, [F.RDC_ITER_CTL.IT1, F.RDC_ITER_CTL.IT2, F.RDC_ITER_CTL.IT3, F.RDC_ITER_CTL.PASSES, F.RDC_ITER_CTL.LLR_SCALE]⟩,
   ⟨0xd4000c, 0x0, 1, [F.RDC_ADAPT_CTL.AGC_MU, F.RDC_ADAPT_CTL.FIR_MU, F.RDC_ADAPT_CTL.OFS_MU, F.RDC_ADAPT_CTL.ASYM_MU, F.RDC_ADAPT_CTL.FRZ_HOLD]⟩,
   ⟨0xd40010, 0x0, 1, [F.RDC_TGT.G1, F.RDC_TGT.G2, F.RDC_TGT.G3, F.RDC_TGT.G4]⟩,
   ⟨0xd40014, 0x0, 1, [F.RDC_NPRED.P1, F.RDC_NPRED.P2, F.RDC_NPRED.P3]⟩,
   ⟨0xd40018, 0x0, 1, [F.RDC_STAT.STOPPED_ONLY, F.RDC_STAT.CMD_REFUSED, F.RDC_STAT.TOO_MANY, F.RDC_STAT.ADAPT_BOUND, F.RDC_STAT.CAL_FAIL, F.RDC_STAT.CAL_BUSY, F.RDC_STAT.HANDOFF_DONE, F.RDC_STAT.CAL_DONE]⟩,
   ⟨0xd4001c, 0x0, 1, [F.RDC_CAL_FAIL.CAL_FAILED]⟩] ++
  (List.range 16).map fun k => ⟨0xd00040 + 4 * k, 0x1000, 64, [F.RDC_FIR_TAP.TAP k]⟩

/-- SRV: 06_servo_motion_pace.md -/
def RegTable.srv : List RegDesc :=
  [⟨0xe00000, 0x0, 1, [F.SRV_CTL.DIB_TH, F.SRV_CTL.WRAP0_OFS]⟩,
   ⟨0xe00004, 0x0, 1, [F.SRV_HEAD.PES, F.SRV_HEAD.PHASE, F.SRV_HEAD.VALID]⟩,
   ⟨0xe00008, 0x0, 1, [F.SRV_EST0.SPREAD, F.SRV_EST0.OFFSET]⟩,
   ⟨0xe0000c, 0x0, 1, [F.SRV_EST1.SKEW, F.SRV_EST1.EST_VALID]⟩,
   ⟨0xe00010, 0x0, 1, [F.SRV_EST2.COARSE]⟩,
   ⟨0xe00014, 0x0, 1, [F.SRV_CNT.LPOS_JUMP, F.SRV_CNT.LPOS_MISS, F.SRV_CNT.SYNC_MISS]⟩,
   ⟨0xe00018, 0x0, 1, [F.SRV_STAT.STOPPED_ONLY]⟩,
   ⟨0xe00100, 0x4, 64, [F.SRV_CH.PES, F.SRV_CH.TRK_VALID, F.SRV_CH.LPOS_OK, F.SRV_CH.POS_VALID, F.SRV_CH.SYNC_OK]⟩]

/-- MOT: 06_servo_motion_pace.md -/
def RegTable.mot : List RegDesc :=
  [⟨0xf00000, 0x0, 1, [F.MOT_CTL.RUN, F.MOT_CTL.LINK_EN, F.MOT_CTL.BUDGET, F.MOT_CTL.POLES]⟩,
   ⟨0xf00004, 0x0, 1, [F.MOT_LOOP.CLOSE, F.MOT_LOOP.STATE]⟩,
   ⟨0xf00008, 0x0, 1, [F.MOT_STAT.STOPPED_ONLY, F.MOT_STAT.SAT, F.MOT_STAT.LOOP_REFUSED, F.MOT_STAT.WRAP_REFUSED, F.MOT_STAT.OVERRUN, F.MOT_STAT.BAD_STEP, F.MOT_STAT.LINK_ERR, F.MOT_STAT.ACC_FAIL, F.MOT_STAT.RUNNING, F.MOT_STAT.FAULT_STOP]⟩,
   ⟨0xf0000c, 0x0, 1, [F.MOT_WRAP.W]⟩,
   ⟨0xf00010, 0x0, 1, [F.MOT_ACC.ACC_LIM, F.MOT_ACC.READ_DIV]⟩,
   ⟨0xf00014, 0x0, 1, [F.MOT_TENS0.T0, F.MOT_TENS0.T_MIN]⟩,
   ⟨0xf00018, 0x0, 1, [F.MOT_TENS1.SPREAD_K, F.MOT_TENS1.T_MAX]⟩,
   ⟨0xf00020, 0x4, 6, [F.MOT_HOLD.HOLD]⟩,
   ⟨0xf00040, 0x0, 1, [F.MOT_CNT.SHOCK_CNT, F.MOT_CNT.DI_ERR, F.MOT_CNT.OVR_CNT]⟩,
   ⟨0xf00100, 0x4, 32, [F.MOT_STG.LEN, F.MOT_STG.EXP, F.MOT_STG.OWNER, F.MOT_STG.KIND]⟩,
   ⟨0xf00800, 0x0, 1, [F.PACE_CTL.EN, F.PACE_CTL.MODE, F.PACE_CTL.PACE_CLASS, F.PACE_CTL.ACC, F.PACE_CTL.VMAX]⟩,
   ⟨0xf00804, 0x0, 1, [F.PACE_LAW.KP, F.PACE_LAW.KI, F.PACE_LAW.STOP_N, F.PACE_LAW.RESUME_YLM]⟩,
   ⟨0xf00808, 0x0, 1, [F.PACE_DEPTH.HDEPTH]⟩,
   ⟨0xf0080c, 0x0, 1, [F.PACE_MAN.SPEED]⟩,
   ⟨0xf00810, 0x4, 4, [F.PACE_QSEL.QUEUE0, F.PACE_QSEL.VALID0, F.PACE_QSEL.QUEUE1, F.PACE_QSEL.VALID1]⟩,
   ⟨0xf00820, 0x0, 1, [F.PACE_STAT.FILL, F.PACE_STAT.STOPPED_ONLY, F.PACE_STAT.TARGET, F.PACE_STAT.STOPPED]⟩,
   ⟨0xf00824, 0x0, 1, [F.PACE_CNT.FORCED, F.PACE_CNT.BACKHITCH]⟩]

/-- TEAM: 14_teams.md -/
def RegTable.team : List RegDesc :=
  [⟨0x1000000, 0x0, 1, [F.TEAM_CTL.RUN, F.TEAM_CTL.PORT]⟩,
   ⟨0x1000004, 0x0, 1, [F.TEAM_STAT.STOPPED_ONLY, F.TEAM_STAT.ABORT_SEEN, F.TEAM_STAT.STRIPE_LOST_SEEN, F.TEAM_STAT.TXR_BAD, F.TEAM_STAT.BUSY, F.TEAM_STAT.UNREACH_ID]⟩,
   ⟨0x1000008, 0x0, 1, [F.TEAM_CNT0.LOSTS, F.TEAM_CNT0.ABORTS, F.TEAM_CNT0.STRIPES]⟩,
   ⟨0x100000c, 0x0, 1, [F.TEAM_CNT1.UNKNOWN, F.TEAM_CNT1.REBUILT]⟩,
   ⟨0x1000100, 0x10, 2, [F.TEAM_SLOT.STATE, F.TEAM_SLOT.SECOND, F.TEAM_SLOT.LEADER, F.TEAM_SLOT.ACT]⟩,
   ⟨0x1000104, 0x10, 2, [F.TEAM_NEXT.STRIPE]⟩,
   ⟨0x1000108, 0x10, 2, [F.TEAM_LOW.LOW]⟩]

/-- The registers of the block window that an offset of BAR0 lies in (R370). -/
def RegTable.window (a : Nat) : List RegDesc :=
  match a / 0x100000 with
  | 0 => RegTable.boot
  | 1 => RegTable.pwr
  | 2 => RegTable.ump
  | 3 => RegTable.hst
  | 4 => RegTable.rng
  | 5 => RegTable.core
  | 6 => RegTable.que
  | 7 => RegTable.pool
  | 8 => RegTable.til
  | 9 => RegTable.cmp
  | 10 => RegTable.cip
  | 11 => RegTable.fmt
  | 12 => RegTable.wrc
  | 13 => RegTable.rdc
  | 14 => RegTable.srv
  | 15 => RegTable.mot
  | 16 => RegTable.team
  | _ => []

/-- Whether a register, or one of an array, lies at an offset. -/
def RegDesc.at (r : RegDesc) (a : Nat) : Bool :=
  decide (r.base ≤ a) &&
    (if r.stride = 0 then a == r.base else (a - r.base) % r.stride == 0 && decide ((a - r.base) / r.stride < r.count))

/-- The register at an offset. -/
def regAt (a : Nat) : Option RegDesc :=
  (RegTable.window a).find? (fun r => r.at a)

/-- The word a list of fields spells, by a value for each. -/
def packFields (v : Field → Nat) : List Field → Nat
  | [] => 0
  | f :: fs => (v f % 2 ^ f.width) <<< f.lo ||| packFields v fs

/-- The word at an offset after VIN power-on: the Reset column (R2), with bit 0 of `TIL_REGION0` reading 0 (R248). Offsets
without a register, and arrays whose Reset column is not given, hold 0. -/
def resetOf (a : Nat) : W32 :=
  if a = 0x800010 then 0xFFFFFFFE
  else match regAt a with
    | some r => BitVec.ofNat 32 (packFields Field.reset r.fields)
    | none => 0

end Sys2Proof.Machine
end

