-- ==== Sys2Proof/Machine/SMap.lean ====
section
/-!
DEFINITION. Sparse storage in one canonical form: a list of (key, value) pairs with strictly rising keys, none of whose
values equals what its key reads as when unlisted. Tile memory, local and AON memory, the boot flash, the register file and
the indexed parts of the engines are held so; equal contents are equal data.
-/
namespace Sys2Proof

/-- A sparse map from addresses or indexes; `d k` is what an unlisted key reads as. -/
abbrev SMap (α : Type) := List (Nat × α)

/-- The listed value of a key. -/
def SMap.find? {α : Type} : SMap α → Nat → Option α
  | [], _ => none
  | (k, v) :: m, a => if a = k then some v else if a < k then none else SMap.find? m a

/-- What a key reads as. -/
def SMap.get {α : Type} (d : Nat → α) (m : SMap α) (a : Nat) : α :=
  match m.find? a with
  | some v => v
  | none => d a

/-- The map with a key's entry taken out. -/
def SMap.drop1 {α : Type} : SMap α → Nat → SMap α
  | [], _ => []
  | (k, v) :: m, a => if a = k then m else if a < k then (k, v) :: m else (k, v) :: SMap.drop1 m a

/-- The map with a key's entry put in, in order. -/
def SMap.put {α : Type} : SMap α → Nat → α → SMap α
  | [], a, x => [(a, x)]
  | (k, v) :: m, a, x =>
    if a = k then (a, x) :: m else if a < k then (a, x) :: (k, v) :: m else (k, v) :: SMap.put m a x

/-- A write: the entry of a value that the key reads as when unlisted is taken out. -/
def SMap.set {α : Type} [DecidableEq α] (d : Nat → α) (m : SMap α) (a : Nat) (x : α) : SMap α :=
  if x = d a then m.drop1 a else m.put a x

/-- Every listed value replaced by what `f` makes of it; a value that its key reads as when unlisted is taken out. -/
def SMap.mapTo {α : Type} [DecidableEq α] (d : Nat → α) (m : SMap α) (f : Nat → α → α) : SMap α :=
  m.filterMap fun e => if f e.1 e.2 = d e.1 then none else some (e.1, f e.1 e.2)

/-- Keys rise strictly and all lie above `lo`. -/
def SMap.above {α : Type} (lo : Nat) : SMap α → Bool
  | [] => true
  | (k, _) :: m => decide (lo < k) && SMap.above k m

/-- Keys rise strictly. -/
def SMap.sorted {α : Type} : SMap α → Bool
  | [] => true
  | (k, _) :: m => SMap.above k m

/-- The canonical form: strictly rising keys, and no entry equal to what an unlisted key reads as. -/
def SMap.wf {α : Type} [DecidableEq α] (d : Nat → α) (m : SMap α) : Bool :=
  SMap.sorted m && m.all (fun e => decide (e.2 ≠ d e.1))

/-- Reads of `n` keys in a row. -/
def SMap.slice {α : Type} (d : Nat → α) (m : SMap α) (a : Nat) : Nat → List α
  | 0 => []
  | n + 1 => m.get d a :: SMap.slice d m (a + 1) n

/-- Writes of a list of values to keys in a row. -/
def SMap.store {α : Type} [DecidableEq α] (d : Nat → α) (m : SMap α) (a : Nat) : List α → SMap α
  | [] => m
  | x :: xs => SMap.store d (m.set d a x) (a + 1) xs

/-- The map with the entries of a range of keys taken out: the range reads as unlisted. -/
def SMap.clear {α : Type} (m : SMap α) (lo n : Nat) : SMap α :=
  m.filter (fun e => e.1 < lo || lo + n ≤ e.1)

end Sys2Proof
end

