-- ==== Sys2Proof/Machine/State.lean ====
section
/-!
DEFINITION. The state of the TV6400: its register file, memories, queues, engines, cores and pins, as plain data, and the
state right after VIN power-on. Registers that software reads and writes are kept in one sparse register file, keyed by
their offset in BAR0 of the physical function (R370); an unlisted register reads as its Reset column (Machine/RegTable.lean).
-/
namespace Sys2Proof.Machine

/-- No command of the spec stops the block with a fault: errors are status values, flags, exceptions of a core and reports
to the umpire, all of them state. The type has no constructor. -/
inductive Fault where
  deriving DecidableEq, Repr

/-- Why a command has no meaning in this model. -/
inductive Refusal where
  /-- raised by `exec` for a command whose meaning is not written yet: safe, nothing is claimed about it -/
  | notModelled (mnemonic : String)
  deriving DecidableEq, Repr

/-! ## Stream cores (R276 to R312) -/

/-- A general register and its poison mark (R279, R281). -/
structure GReg where
  val : W64 := 0
  mark : Bool := false
  deriving DecidableEq, Repr

/-- A wide register and its poison mark (R279, R281). -/
structure WReg where
  val : W128 := 0
  mark : Bool := false
  deriving DecidableEq, Repr

/-- One entry of the loop stack (R292). -/
structure LoopEntry where
  start : Nat
  stop : Nat
  count : Nat
  deriving DecidableEq, Repr

/-- An action staged in a transaction (R304). -/
inductive Staged where
  | tset (addr : Nat) (val : W64)
  | bfree (handle : W32)
  | qput (q : Nat) (item : W128)
  | issue (target : Nat) (desc : List Byte) (cq : Nat)
  deriving DecidableEq, Repr

/-- The four states of a core (R277). -/
inductive CoreRun where
  | stopped | running | halted | faulted
  deriving DecidableEq, Repr

/-- What a running core waits for. -/
inductive Stall where
  | none
  /-- LDT until the data returns (R278): destination, width in bytes, sign extension, wide destination, handle, offset -/
  | load (rt : Rf) (bytes : Nat) (signed wide : Bool) (handle : W32) (off : Nat)
  /-- blocking ISSUE until acceptance (R299) -/
  | issue (rd : Rf) (target : Nat) (desc : List Byte) (cq : Nat)
  /-- WAIT until a masked event or the timeout, which `forever` says never comes (R301) -/
  | wait (rd : Rf) (forever : Bool)
  /-- TXC until its queues have room (R331) -/
  | commit (rd : Rf)
  deriving DecidableEq, Repr

/-- One stream core. -/
structure Core where
  run : CoreRun := .stopped
  imgOk : Bool := false
  imageId : W64 := 0
  imageVer : W32 := 0
  securityVer : W32 := 0
  entry : Nat := 0
  handler : Option Nat := none
  codeLen : Nat := 0
  engineMask : W32 := 0
  im : SMap Byte := []
  ldm : SMap Byte := []
  /-- marked aligned 8-byte words of LDM, by word number (R281) -/
  ldmMark : SMap Bool := []
  g : SMap GReg := []
  w : SMap WReg := []
  pc : Nat := 0
  fz : Bool := false
  fn : Bool := false
  fc : Bool := false
  fv : Bool := false
  fq : Bool := false
  fh : Bool := false
  fm : Bool := false
  evm : W64 := 0
  /-- the edge bits of EVP: QW0 to QW3 in bits 0 to 3, TIMER bit 8, SIGNAL bit 9 (R300) -/
  evEdge : W64 := 0
  timer : W64 := 0
  qwatch : SMap W64 := []
  fcode : Nat := 0
  fpc : Nat := 0
  faddr : W64 := 0
  fstat : W16 := 0
  loops : List LoopEntry := []
  level : Nat := 0
  staged : List Staged := []
  depth : Nat := 0
  aborted : Bool := false
  cause : Nat := 0
  /-- another transaction committed a TSET to an address staged here since it was staged (R331) -/
  overlap : Bool := false
  stopReq : Bool := false
  /-- the grace of a stop request ran out within an instruction: the core stops at its end (R312) -/
  graceOver : Bool := false
  stall : Stall := .none
  deriving DecidableEq, Repr

/-- The program load in progress (R314): what GO found in `CORE_LOAD_H` and `CORE_LOAD_L`, and the targets it named. -/
structure Load where
  handle : W32 := 0
  length : Nat := 0
  targets : List Nat := []
  deriving DecidableEq, Repr

/-! ## Engine commands and completions (R316 to R327) -/

/-- An accepted engine command. -/
structure Cmd where
  core : Nat
  target : Nat
  desc : List Byte
  cq : Nat
  /-- order of acceptance over all engines -/
  seq : Nat
  /-- the lane a CMP command was placed on (R234); none when no lane of its role was enabled -/
  lane : Option Nat := none
  /-- named buffers whose owner was not the stream cores at acceptance (R322) -/
  badOwner : Bool := false
  /-- COMMIT_SEQ as it stood at acceptance, after the TSETs of its own commit (R330, R423) -/
  txSeq : Nat := 0
  /-- the handles taken at acceptance (R11) -/
  taken : List W32 := []
  /-- the transaction it was staged in (R330): one more than the acceptance order of its first command; 0 outside one -/
  txn : Nat := 0
  deriving DecidableEq, Repr

/-- A finished command's completion item, held until its queue takes it (R322); a reset notice of HST (R383) waits so too,
under a command of no core. -/
structure Held where
  item : W128
  cmd : Cmd
  deriving DecidableEq, Repr

/-! ## Tiles, pools and queues (R246 to R275) -/

/-- The checks and metadata of one tile (R249). The record's CRC-32C, P and Q are held as their difference (XOR) from the
checks of the bytes the tile holds, bytes at or beyond FILL counting as zero: 0 means that they agree. A delta update
(R250) changes a record and its tile alike, so it leaves these differences as they are. `recBad` says that the record's own
CRC-32C fails or that it holds a located byte. -/
structure TileRec where
  fill : Nat := 0
  verified : Bool := false
  poison : Bool := false
  corr : Nat := 0
  recBad : Bool := false
  crcDiff : W32 := 0
  pDiff : Byte := 0
  qDiff : Byte := 0
  deriving DecidableEq, Repr

/-- One pool buffer (R262, R263, R355). Owner code 0 is a free buffer. -/
structure Buf where
  owner : Nat := 0
  core : Nat := 0
  gen : Byte := 0
  provisional : Bool := false
  deriving DecidableEq, Repr

/-- The pointers of a queue, each held twice (R270, R272), and its watermark state (R273). -/
structure Queue where
  wp : Nat := 0
  rp : Nat := 0
  wp2 : Nat := 0
  rp2 : Nat := 0
  above : Bool := false
  deriving DecidableEq, Repr

/-! ## Read channel -/

/-- What a channel bit is to the timing loop and to the adaptive loops (R118, R134). -/
inductive BitKind where
  | preamble | mark | body | fill
  deriving DecidableEq, Repr

/-- One channel bit as heard: interpolated sample, equaliser output and detector error in ADC codes (R116, R120, R126), the defect
flag before its extension, and the detector's decision. -/
structure HeardBit where
  y : Rat := 0
  z : Rat := 0
  err : Rat := 0
  raw : Bool := false
  kind : BitKind := .body
  bit : Bool := false
  deriving DecidableEq, Repr

/-- A segment in the sample history (R113): its number on the channel, the channel's bit count at its first bit, the place of the
end of its resume mark, its decided bits, newest first, the six samples behind them that only the equaliser sees, newest first, and
its place on tape. -/
structure HeardSeg where
  num : Nat
  start : Nat
  base : Int := 40
  bits : List HeardBit := []
  after : List Rat := []
  wrap : Nat := 0
  lpos : Nat := 0
  deriving DecidableEq, Repr

/-- A survivor of the detector (R121): its metric, its latest whitening errors and its decisions, both newest first. -/
structure Survivor where
  metric : Rat := 0
  errs : List Rat := []
  path : List Bool := []
  deriving DecidableEq, Repr

/-- Where a course lies as the framer aligned it (R141, R142): the number of the segment in which it starts, its last atom there,
the place of its first bit there as part 1 and as part 2 are aligned, and the place at which either goes on in the next segment. -/
structure CourseAt where
  seg : Nat := 0
  l : Nat := 292
  off1 : Int := 0
  off2 : Int := 0
  next1 : Int := 0
  next2 : Int := 0
  deriving DecidableEq, Repr

/-- A course copy the framer has aligned or erased and C1 has not decoded (R141, R143), with its place on tape and in the sample
history. -/
structure Framed where
  hdr : W64
  /-- codeword bits 0 to 767 go to C1 with LLR zero (R142) -/
  part1Lost : Bool
  erased : Bool
  wrap : Nat
  lpos : Nat
  /-- data bits of the segment before the course's first bit -/
  bit : Nat := 0
  place : CourseAt := {}
  deriving DecidableEq, Repr

/-- One read channel beside its registers. -/
structure RChan where
  /-- ADC samples since the channels' common start, and the corrector's latest 16 outputs, newest first (R113) -/
  adcCount : Nat := 0
  adc : List Rat := []
  /-- phase accumulator in ADC samples and integrator f (R116), and both as saved at a leading guard (R119), with the bits before the
  saved phase; bits still to be interpolated behind the guard's begin, for the data bits before it (R120) -/
  phase : Rat := 0
  freq : Rat := 0
  savedPhase : Rat := 0
  savedFreq : Rat := 0
  savedCount : Nat := 0
  inGuard : Bool := false
  tail : Nat := 0
  /-- interpolated samples ahead of the equaliser's main tap, newest first (R120) -/
  ahead : List Rat := []
  /-- channel bits since the channel started, those of battens among them -/
  count : Nat := 0
  /-- bits whose decision is still to come (R133), and the segments of the sample history (R113), newest first -/
  young : List HeardBit := []
  heard : List HeardSeg := []
  /-- number of the next segment; a channel counts on when it is stopped and started -/
  nextNum : Nat := 1
  /-- the detector's survivors by state (R121); none before its first bit -/
  det : List (Option Survivor) := []
  /-- the equaliser output and the target output of the bit before, of the timing error (R116) -/
  lastZ : Rat := 0
  lastD : Rat := 0
  /-- phase errors of the last 256 bits, newest first, and bits in a row with f at its clamp (R117) -/
  perr : List Rat := []
  clampRun : Nat := 0
  /-- bits in a row with too small a mean magnitude (R126); length of the flagged stretch in progress, and of one that has ended
  and has not been acted upon (R126, R128) -/
  dropRun : Nat := 0
  defRun : Nat := 0
  defEnded : Nat := 0
  /-- bits for which the gain loop still runs with the acquisition step (R128), and until its first preamble ends (R138) -/
  acqLeft : Nat := 0
  acqFirst : Bool := false
  /-- fractions of a code that the loops hold beyond their registers: gain, offset, asymmetry, taps (R133) -/
  fracs : SMap Rat := []
  /-- CTF cutoff in Hz (R114) -/
  cutoff : Rat := 0
  /-- zone of the current segment (R131), none before the first -/
  zone : Option Nat := none
  /-- segments read, for captures (R136) -/
  segments : Nat := 0
  /-- place of the current segment -/
  wrap : Nat := 0
  lpos : Nat := 0
  /-- the packing prediction (R140, R143): segment and place of the next course, those of the course before it (R134), and the
  shift of that course's alignment -/
  pred : Option (Nat × Nat) := none
  prev : Option (Nat × Nat) := none
  shift : Int := 0
  /-- in hunt, the bit count from which on places are tested (R144) -/
  huntAt : Nat := 0
  handoffPending : Bool := false
  /-- a calibration is to stop the channel at its next resume mark, and has stopped it (R149) -/
  calStop : Bool := false
  calOff : Bool := false
  framed : List Framed := []
  deriving DecidableEq, Repr

/-- A decoded or failed course copy as FMT has it (R97, R98), with the place on tape of the segment it was framed in. -/
structure Copy where
  chan : Nat
  hdr : W64
  pass : Bool
  corr : Nat
  data : List Byte
  /-- order of reading; later is further in the direction of travel -/
  order : Nat
  wrap : Nat := 0
  lpos : Nat := 0
  bit : Nat := 0
  deriving DecidableEq, Repr

/-! ## Write path -/

/-- What a written course is (R43, R53, R62): `slot` is a let slot whose first atom has not gone; `unwritten` fills the
stretch of a quarter that is not written (R68). -/
inductive CourseKind where
  | orig | slot | letCopy | blank | sealCourse | unwritten
  deriving DecidableEq, Repr

/-- One course in a channel's write stream. -/
structure CourseOut where
  kind : CourseKind
  /-- sequence number of the WRITE or SEAL command it belongs to -/
  job : Nat
  yealm : Nat
  quarter : Nat := 0
  /-- position i, or for a let slot its slot number q -/
  pos : Nat
  /-- channel index, and the length of the active list -/
  k : Nat
  n : Nat
  /-- C2 group and position of the course itself -/
  g : Nat
  i : Nat
  rewrite : Nat
  selector : Nat
  /-- the yealm buffer, or the seal record -/
  addr : W64 := 0
  record : List Byte := []
  /-- it failed when its gate was off (R164) -/
  gated : Bool := false
  /-- in the last segment before a stop (R213 step 1) -/
  tail : Bool := false
  /-- written again and not judged again -/
  again : Bool := false
  deriving DecidableEq, Repr

/-- One write channel: the packing of R37, the segment under the open gate, and the courses that await verify, oldest first. -/
structure WChan where
  queue : List CourseOut := []
  /-- the next atom of the head of `queue`, 1 to 292 -/
  atom : Nat := 1
  /-- the next segment of the wrap's data zone, counted in the direction of travel -/
  seg : Nat := 0
  gateOpen : Bool := false
  len : Nat := 0
  /-- courses completed under the open gate, the latest of `awaiting`; and whether the head of `queue` was begun under it -/
  curDone : Nat := 0
  curSplit : Bool := false
  /-- written bits at the end of the last atom of each of them, `curDone` first; and the bits of the segment under the gate -/
  ends : List Nat := []
  laid : List Bool := []
  /-- the gate-on point in writer bits (R155) -/
  gateAt : Rat := 0
  awaiting : List CourseOut := []
  /-- the courses and first atom of a last segment that was filled for want of courses (R213) -/
  rewind : Option (List CourseOut × Nat) := none
  /-- battens delivered in a row within the bound of R154, since the last cell that delivered none -/
  goodBattens : Nat := 0
  /-- writer bits at which the channel's reader met its latest battens, newest first (R153), and the ADC sample count then -/
  anchors : List Rat := []
  anchorTime : Rat := 0
  /-- bits that wait for the lane of the writer link (R157, R158) -/
  lane : List Bool := []
  deriving DecidableEq, Repr

/-- A yealm that FMT has been asked to write, with the instance in force (R54, R55, R166). Course keys are
quarter * 2^16 + g * 256 + i and slot keys quarter * 1,024 + q. -/
structure YealmJob where
  cmd : Cmd
  yealm : Nat
  quad : Bool
  n : Nat
  selector : Nat
  inst : Nat := 0
  started : Bool := false
  /-- a new instance is scheduled, with its place in the order of scheduling -/
  scheduled : Option Nat := none
  /-- courses still to be verified in this instance -/
  pending : Nat := 0
  passed : SMap Bool := []
  /-- failures of each course -/
  tries : SMap Nat := []
  /-- let slots: the course key + 1 -/
  slots : SMap Nat := []
  /-- slots whose first atom has gone -/
  gone : SMap Bool := []
  letCount : Nat := 0
  deriving DecidableEq, Repr

/-- A seal FMT holds (R321) or is writing. -/
structure SealJob where
  cmd : Cmd
  record : List Byte
  begun : Bool := false
  rewrite : Nat := 0
  selector : Nat := 0
  total : Nat := 0
  passes : Nat := 0
  judged : Nat := 0
  /-- by channel, the place where the seal's first course begins and where the course of its latest repeat ends (R62) -/
  begins : List (Nat × Nat) := []
  ends : List (Nat × Nat) := []
  deriving DecidableEq, Repr

/-- A valid seal of the chain (R65, R66) with what the rules ask of it. -/
structure SealRec where
  seq : Nat
  first : Nat
  last : Nat
  skip : Nat
  idxFirst : Nat
  idxCount : Nat
  flags : Nat
  wrap : Nat
  lpos : Nat
  crc : W32
  /-- dark selector of the seal's header (R62) -/
  selector : Nat
  /-- the 1,024 bytes of its record -/
  record : List Byte := []
  /-- by channel that holds a course of it: the place where its first course begins and where its last repeat ends (R62) -/
  begins : List (Nat × Nat) := []
  ends : List (Nat × Nat) := []
  deriving DecidableEq, Repr

/-- A yealm FMT has read and taken through C2 (R102): its courses in buffer order, n * i + g, those without a nonzero byte not
listed, and the C2 codewords that failed, g * 1,024 + byte index. -/
structure Decoded where
  yealm : Nat
  n : Nat
  selector : Nat
  data : SMap (List Byte)
  failed : List Nat
  /-- its courses came from more than one quarter (R108) -/
  mixed : Bool
  deriving DecidableEq, Repr

/-- The ECC formatter beside its registers. -/
structure Fmt where
  jobs : List YealmJob := []
  seals : List SealJob := []
  /-- SEALs that ended other than OK, by the transaction they were staged in (R423) -/
  sealFailed : List (Nat × W16) := []
  /-- yealms that ended MEDIA_LOST or TAPE_FULL, with the status (R321) -/
  ended : List (Nat × W16) := []
  /-- yealms of no valid seal that passed verify -/
  passed : List Nat := []
  nextSched : Nat := 0
  copies : List Copy := []
  nextOrder : Nat := 0
  decoded : List Decoded := []
  /-- yealms with a failed C2 codeword held for a later instance (R106), and how many copies had been read when C2 ran over each -/
  waiting : List Nat := []
  c2At : SMap Nat := []
  /-- entries 0 to 7 of the dark table (R47) -/
  darkTable : List Byte := [0xFF, 0xFF, 0xFF, 0xFF, 0xFF, 0xFF, 0xFF, 0xFF]
  /-- the valid seals, the format seal first -/
  chain : List SealRec := []
  /-- where the quad-written yealms of groups not yet sealed began: yealm, wrap, LPOS on their first quarter's first channel -/
  quadStarts : List (Nat × Nat × Nat) := []
  /-- the newest index set: wrap, LPOS, yealm (R71) -/
  index : Nat × Nat × Nat := (0, 0, 0)
  /-- the ridge protection in force (R60); the spec gives none before a format or a mount, and the model takes it on.
  DESIGN CHOICE: log entry 105. -/
  ridgeProtection : Bool := true
  deriving DecidableEq, Repr

/-- The write channel beside its registers (R151 to R176). -/
structure Wrc where
  chans : SMap WChan := []
  /-- the wrap on which the next yealm or seal begins -/
  wrap : Nat := 0
  /-- packing stands where the last write left it; otherwise it is taken up by R67 at the next WRITE -/
  placed : Bool := false
  /-- groups have failed (R339): before any yealm of a WRITE accepted from the first number on, packing is to be taken up anew by R67,
  once those accepted before have ended and the group with the second number is sealed -/
  resume : List (Nat × Nat) := []
  /-- the wrap that the latest direction frame announced, none after a wrap-end block (R151, R157) -/
  announced : Option Nat := none
  /-- sideband frames still to be answered, the first one sent: link, type, failures -/
  sbQueue : List (Nat × Nat × Nat) := []
  /-- failures of the status read of each link (R162) -/
  statTries : SMap Nat := []
  /-- latched write current and precompensation, by channel (R161) -/
  iwLatch : SMap W32 := []
  pcLatch : SMap W32 := []
  shockLow : Bool := false
  accHigh : Bool := false
  /-- the writer bit clock (R152): ADC sample count of its latest update, writer bits then, bits per sample, and their change per
  sample -/
  clockTime : Rat := 0
  clockBits : Rat := 0
  clockRate : Rat := 0
  clockAcc : Rat := 0
  /-- the scrambler of each link (R157), writer bits already sent on the links, and idle blocks since WSYN started (R159) -/
  scram : SMap (BitVec 58) := []
  linkBits : Rat := 0
  idleSent : Nat := 0
  /-- consecutive samples above PES_TH, consecutive samples without position, and consecutive clear samples (R170, R173) -/
  pesBad : Nat := 0
  posLost : Nat := 0
  clearSamples : Nat := 0
  deriving DecidableEq, Repr

/-! ## Servo, motion, pace -/

/-- The latest batten of a channel (R186) and what SRV tracks of it. -/
structure SrvChan where
  track : Nat := 0
  trkValid : Bool := false
  /-- LPOS in force, none after hunt until one has passed (R183) -/
  lpos : Option Nat := none
  /-- a passing LPOS that differed from the prediction, waiting for its successor (R183) -/
  jump : Option Nat := none
  /-- PES in nm (R185), of the latest batten with valid position -/
  pes : Rat := 0
  posValid : Bool := false
  /-- the stretch of ADC samples handed over by RDC, newest first, and the sample count at its first one (R178) -/
  stretch : List Int := []
  stretchAt : Nat := 0
  /-- a stretch whose trailing guard has passed the reader, to be decoded (R178) -/
  ready : Bool := false
  /-- start of the latest batten in 1/64 ADC samples (R186), and the place of its sync in ADC samples (R180) -/
  time : Int := 0
  syncAt : Rat := 0
  hunt : Bool := true
  /-- cells without an accepted sync since the last one (R154, R180) -/
  misses : Nat := 2
  /-- decoded with valid position since the last sample of its phase, and since the last cell fit (R187, R189) -/
  fresh : Bool := false
  inCell : Bool := false
  /-- decoded with timing since the last cell fit (R186, R189) -/
  timed : Bool := false
  /-- ADC samples between the latest two battens, per cell (R198) -/
  cell : Rat := 0
  deriving DecidableEq, Repr

/-- SRV, MOT and pace beside their registers (R178 to R215). -/
structure Mot where
  srv : SMap SrvChan := []
  /-- spread slope of the latest estimate in nm per position (R189) -/
  sigma : Rat := 0
  /-- spread in ppm and whether a fit has given it -/
  spread : Rat := 0
  /-- input ports: live values, and the snapshot of the latest tick (R198) -/
  live : SMap Rat := []
  ports : SMap Rat := []
  /-- last output codes of channels 0 to 5 (R199) -/
  codes : SMap W16 := []
  tick : Nat := 0
  /-- the program of the latest tick has not reached END (R197) -/
  overrunDue : Bool := false
  overruns : Nat := 0
  /-- every loop opens at the next tick boundary (R197) -/
  openAll : Bool := false
  /-- a written wrap takes effect at the next tick boundary (R203) -/
  wrapReq : Option Nat := none
  inDataZone : Bool := false
  /-- latest 256 accelerometer reads of each value descriptor in mg, newest first (R209) -/
  accHist : SMap (List Rat) := []
  /-- tension setpoint in mN and the value it moves toward (R208) -/
  tension : Rat := 850
  tensGoal : Rat := 850
  /-- pace (R211): integrator in m/s, updates below 0.80 m/s, read updates above 90 % -/
  integ : Rat := 0
  below : Nat := 0
  readHigh : Nat := 0
  /-- yealms per update over the last 32 updates, newest first; those since: complete in tile memory, and released -/
  ry : List Nat := []
  ryNow : Nat := 0
  ryFreed : Nat := 0
  /-- handles of the buffers that hold a yealm READ has delivered, until they are freed -/
  ylmBufs : List Nat := []
  /-- fill of the latest update in percent -/
  fill : Rat := 0
  /-- speed target in mm/s, signed -/
  target : Int := 0
  /-- the tape's direction of reading and writing is reverse (R210) -/
  reverse : Bool := false
  /-- pace is to stop at the boundary; the tape is stopped or reversed by a backhitch (R213) -/
  stopPending : Bool := false
  stopped : Bool := false
  /-- a backhitch's way in mm (R213): from where it decelerates, and where the reversed tape stands; it waits there -/
  backAt : Rat := 0
  backGoal : Rat := 0
  reversing : Bool := false
  waiting : Bool := false
  /-- tape speed at the tick before (R152) -/
  speedWas : Rat := 0
  /-- for the supply and the take-up reel: sum and number of radii over the revolution in progress, and turns (R198) -/
  radSum : SMap Rat := []
  radTurn : SMap Rat := []
  radCount : SMap Nat := []
  deriving DecidableEq, Repr

/-! ## Compression engine (R231 to R245) -/

/-- A run context as a lane holds it (R236, R237). -/
structure Ctx where
  init : Bool := false
  decomp : Bool := false
  poisoned : Bool := false
  window : W32 := 0
  histLen : Nat := 0
  wpos : Nat := 0
  rep : Nat := 1
  total : Nat := 0
  bundles : Nat := 0
  codeLens : List Nat := []
  heads : SMap Nat := []
  /-- the window, offset P mod 262,144 (R236) -/
  hist : SMap Byte := []
  deriving DecidableEq, Repr

/-- What a compression lane made of a context and input (R239): the model's own record of a choice that the spec leaves the lane. -/
structure Coded where
  ctx : Ctx
  input : List Byte
  body : List Byte
  deriving DecidableEq, Repr

/-- One lane: the slot whose context is loaded, and that context. -/
structure Lane where
  loaded : Option Nat := none
  ctx : Ctx := {}
  deriving DecidableEq, Repr

/-! ## Key store (R358) -/

/-- One key slot. -/
structure KeySlot where
  valid : Bool := false
  key : BitVec 256 := 0
  ksize : Nat := 0
  enc : Bool := false
  dec : Bool := false
  tkid : W64 := 0
  deriving DecidableEq, Repr

/-! ## Host port (R367 to R387) -/

/-- A queue pair beside its registers (R374). -/
structure QPair where
  sqHead : Nat := 0
  sqTail : Nat := 0
  cqHead : Nat := 0
  cqTail : Nat := 0
  phase : Bool := true
  /-- entries written and not yet signalled (R381) -/
  unsignalled : Nat := 0
  deriving DecidableEq, Repr

/-- A stream opened by the standard program set (R354, R384), with its open segment (R76, R228): what the segment's body and clear
content amount to so far. -/
structure Stream where
  isOpen : Bool := false
  ivBase : W64 := 0
  tkid : W64 := 0
  cls : W32 := 0
  apSize : W32 := 0
  nextSeq : Nat := 0
  written : Nat := 0
  /-- its records are record units (R73), not segments -/
  plain : Bool := true
  /-- sequence of the open segment within the stream (R75) -/
  segSeq : Nat := 0
  /-- the next segment to begin starts a run (R229); the open segment does so -/
  runNext : Bool := true
  runStart : Bool := false
  /-- the run context after the bundles so far (R227) -/
  ctx : Ctx := {}
  body : List Byte := []
  orig : Nat := 0
  /-- the records whose header begins in the open segment: offset of the first within the original bytes, and their sequences -/
  firstAt : Nat := 0
  began : List Nat := []
  /-- sequence of the latest record with a byte in the open segment -/
  lastRec : Nat := 0
  /-- the records with a byte in the open segment -/
  touched : List Nat := []
  deriving DecidableEq, Repr

/-- One entry of an index set (R70). -/
structure IndexEntry where
  stream : W32
  flags : Nat
  first : Nat
  last : Nat
  yealm : Nat
  off : Nat
  deriving DecidableEq, Repr

/-- One entry of a seal's index delta (R64). -/
structure Delta where
  stream : W32
  first : Nat
  count : Nat
  yealm : Nat
  off : Nat
  deriving DecidableEq, Repr

/-- The commit group that the program set is filling (R61, R72). -/
structure UnitGroup where
  /-- first yealm number of the group, and the next data yealm number; every number between is used, parity and skipped ones
  counted -/
  first : Nat := 0
  next : Nat := 0
  /-- the group's data yealms: number and data bytes (R49) -/
  layout : List (Nat × Nat) := []
  /-- the unit stream so far -/
  stream : List Byte := []
  /-- cumulative unit-header CRC before the group and after its units so far (R90) -/
  cumBefore : W32 := 0
  cum : W32 := 0
  /-- records whose header begins in the group -/
  count : Nat := 0
  delta : List Delta := []
  /-- index entries of the group's units -/
  index : List IndexEntry := []
  skip : Nat := 0
  ridgeClosed : Bool := false
  /-- dark group of the ridge in progress (R58) -/
  dark : Option Nat := none
  /-- it is the first group after writing resumed (R67) -/
  resumed : Bool := false
  deriving DecidableEq, Repr

/-- A closed commit group whose seal has not passed: the seal record as the program set fills it (R63, R319), the unit stream, its
data yealms, and the data of its index yealms (R70). -/
structure ClosedGroup where
  seq : Nat
  record : List Byte
  stream : List Byte
  layout : List (Nat × Nat)
  parts : List (Nat × List Byte)
  /-- what an image picked for the transaction that commits it, and whether that has been committed (R337) -/
  plan : Option CommitPlan := none
  /-- the stream table after the group (R328, R337) -/
  table : List (List Nat) := []
  committed : Bool := false
  deriving DecidableEq, Repr

/-- A work item of the standard program set whose completion entry is not written yet: due and waiting for room in its CQ, or
waiting for the seal of commit sequence number `seq` (R169, R384). -/
structure Waiting where
  fn : Nat
  pair : Nat
  cid : W16
  due : Bool
  seq : Nat
  status : W16
  detail : Nat
  result : Nat
  /-- of a WRITE_RECORD its stream and sequence -/
  record : Option (Nat × Nat) := none
  /-- once due, the number of the next command when it became so (R380) -/
  order : Nat := 0
  deriving DecidableEq, Repr

/-- A record written since the cartridge was mounted: stream, sequence, bytes, and the yealm that holds the unit in which its header
begins, none while that unit is not placed (R384 LOCATE). -/
structure RecordInfo where
  stream : W32
  seq : W64
  yealm : Option Nat
  length : Nat
  deriving DecidableEq, Repr

/-- HST beside its registers. -/
structure Hst where
  pairs : SMap QPair := []
  /-- configuration space, key function * 4,096 + offset -/
  config : SMap W32 := []
  /-- MSI-X tables, key function * 4,096 + offset (R369) -/
  msix : SMap W32 := []
  /-- the link has come up since the last reset of the port -/
  pcieUp : Bool := false
  perstHigh : Bool := false
  /-- MSI-X messages pending while their vectors are masked (R369): 8 * function + vector -/
  pba : List Nat := []
  /-- the pair, 16 * function + pair, with which the round of work item fetches goes on (R376) -/
  turn : Nat := 0
  /-- a PERST_N or hot reset came and the link is not up again (R500) -/
  afterPerst : Bool := false
  streams : SMap Stream := []
  waiting : List Waiting := []
  records : List RecordInfo := []
  /-- the commit group being filled, those closed and not sealed, the index entries of all units before, and the number of the next
  index yealm -/
  group : UnitGroup := {}
  closed : List ClosedGroup := []
  index : List IndexEntry := []
  quadNext : Nat := 0x8000001
  /-- accesses that came in DOZE, held until the wake is over (R447), first in first out -/
  heldTlps : List Instr := []
  mounted : Bool := false
  /-- groups committed, by commit sequence number, with the completions of their SEAL and LEAK_COMMITs still to come (R337, R425) -/
  sealing : List (Nat × Nat) := []
  deriving DecidableEq, Repr

/-! ## Ring and umpire (R388 to R404) -/

/-- A frame as it leaves or waits for its acknowledgement. -/
structure OutFrame where
  seq : Nat
  folded : Bool
  hops : Nat
  header : List Byte
  payload : List Byte
  deriving DecidableEq, Repr

/-- One port beside its registers. -/
structure RPort where
  unacked : List OutFrame := []
  /-- frames that wait while 256 are unacknowledged (R392) -/
  held : List OutFrame := []
  nextSeq : Nat := 0
  expect : Nat := 0
  resends : Nat := 0
  foldEdge : Bool := true
  ackDue : Bool := false
  nakDue : Bool := false
  deriving DecidableEq, Repr

/-- A message being put together (R394). -/
structure Reasm where
  src : Nat
  msg : Nat
  cls : Nat
  total : Nat
  cmd : Cmd
  got : List (Nat × Nat)
  deriving DecidableEq, Repr

/-- A SEND waiting for its receipt (R393). -/
structure Sending where
  cmd : Cmd
  msg : W16
  broadcast : Bool
  deriving DecidableEq, Repr

/-- A transmit lane of a ring port: its scrambler and the blocks it has sent (R388). -/
structure TxLane where
  scram : BitVec 58 := 0
  count : Nat := 0
  deriving DecidableEq, Repr

/-- The ring ports. -/
structure Rng where
  east : RPort := {}
  west : RPort := {}
  /-- transmit lanes that have sent: of the east port 0 to 3, of the west port 4 to 7 (R388) -/
  lanes : SMap TxLane := []
  nextMsg : W16 := 0
  sending : List Sending := []
  posted : List Cmd := []
  reasm : List Reasm := []
  /-- broadcast frames copied within the last millisecond: source, message number, offset (R396) -/
  seen : List (Nat × Nat × Nat) := []
  /-- messages held whole: source and message number (R394) -/
  finished : List (Nat × Nat) := []
  deriving DecidableEq, Repr

/-- An open window of the umpire (R402). -/
structure Window where
  origin : W16
  code : W16
  reporter : W16
  own : Bool
  count : Nat
  detail : W64
  openedMs : Nat
  deriving DecidableEq, Repr

/-- The umpire beside its registers. -/
structure Ump where
  /-- open windows, earliest opened first -/
  windows : List Window := []
  /-- which of the 128 log slots hold a partner report -/
  partner : SMap Bool := []
  /-- HEAD has caught up with TAIL: all 128 reports are unread, where equal pointers would else mean none (R403) -/
  full : Bool := false
  /-- the last millisecond at which code 0x0201 was written, and drops since -/
  dropMs : Option Nat := none
  dropsSince : Nat := 0
  deriving DecidableEq, Repr

/-! ## Teams (R405 to R433) -/

/-- A slice of an accumulator as the receiver holds it until its other half is in: half, offset, bytes, erasure mask (R428). -/
structure Slice where
  half : Nat
  off : Nat
  bytes : List Byte
  mask : Nat
  deriving DecidableEq, Repr

/-- A STRIPE or REBUILD_READ this member has accepted and not completed. -/
structure Chain where
  cmd : Cmd
  slot : Nat
  stripe : Nat
  /-- member index x of STRIPE; the lost member of REBUILD_READ -/
  x : Nat
  /-- this member is the receiver of REBUILD_READ -/
  receiver : Bool
  /-- the attempt of its frames (R420) -/
  attempt : Nat := 0
  /-- the member from which READY has arrived (R415) -/
  readyFrom : Option Nat := none
  readySent : Bool := false
  /-- slices that have arrived: half, offset -/
  got : List (Nat × Nat) := []
  /-- slices of a receiver whose other half is still to come -/
  slices : List Slice := []
  /-- a slice could not be solved (R429) -/
  lost : Bool := false
  /-- message numbers of the frames it has sent -/
  msgs : List W16 := []
  deriving DecidableEq, Repr

/-- A LEAK_COMMIT in progress (R423), with the regions CLEAN frames have covered. -/
structure LeakJob where
  cmd : Cmd
  slot : Nat
  first : Nat
  count : Nat
  sealSeq : Nat
  sent : Bool := false
  cleaned : List Nat := []
  deriving DecidableEq, Repr

/-- A change of the leader's map that the second has not acknowledged (R424): message number of the MAPCOPY, slot, and the
regions that are then told clean. -/
structure MapChange where
  msg : W16
  slot : Nat
  regions : List Nat
  deriving DecidableEq, Repr

/-- The redundancy engine beside its registers. -/
structure Team where
  chains : List Chain := []
  /-- READY that came before its STRIPE was accepted: slot, stripe, sender, attempt (R415) -/
  early : List (Nat × Nat × Nat × Nat) := []
  leaks : List LeakJob := []
  /-- regions each member has reported: key slot * 65,536 + member (R422) -/
  reported : SMap (List Nat) := []
  changes : List MapChange := []
  /-- of each slot's record as TEAM last acted on it: LOST mask, and SECOND device ID (R412, R421, R424) -/
  lostMask : SMap Nat := []
  second : SMap Nat := []
  /-- and its TEAM_ID and GEN, for which `reported` stands -/
  ident : SMap Nat := []
  deriving DecidableEq, Repr

/-! ## Power and boot (R434 to R474) -/

/-- The transition of the power controller in progress. -/
inductive Transition where
  | none
  /-- an entry before its point of no return (R439, R440) -/
  | entering (s : PState)
  /-- an entry past it, which the next exit or idle step finds complete -/
  | closing (s : PState)
  | exiting (s : PState)
  deriving DecidableEq, Repr

/-- The system controller beside its registers. -/
structure Pwr where
  trans : Transition := .none
  /-- AON runs from the crystal (R17) -/
  xtal : Bool := false
  /-- tile memory is dropped (R443) -/
  qdrDropped : Bool := false
  /-- the saved-register area has been written; the draw its bytes come from (R444) -/
  saved : Option Nat := none
  sampleNo : Nat := 0
  /-- the sampler log is full of unread entries (R456) -/
  smpFull : Bool := false
  /-- AON_1V8 is on -/
  aon1v8 : Bool := false
  /-- AON_1V8 switched off on over-current: the sample it falls in ends (R457) -/
  supplyTripped : Bool := false
  /-- values whose wake is disarmed until they are inside their window again (R455) -/
  disarmed : SMap Bool := []
  /-- PE_WAKE_N is driven low (R386) -/
  peWake : Bool := false
  deriving DecidableEq, Repr

/-- Boot state beside its registers and the journal in AON memory (R459 to R474). -/
structure Boot where
  vinGood : Bool := true
  vioGood : Bool := true
  /-- a start of this reset kind begins when VIO is good (R481, R482) -/
  held : Option Nat := none
  /-- index of this start's record in the journal, and the record this start took at S0 (R461) -/
  recIndex : Nat := 0
  prev : List Byte := []
  /-- the formatter has been in NAP since its start: `BOOT_STAT` shows the marks of the start no more (R444, R472) -/
  napped : Bool := false
  /-- groups of each quarter that S6 has still to calibrate (R148) -/
  calLeft : List (List Nat) := []
  /-- of the running boot image: version, security version, digest, flags, whether an owner signed it (R464) -/
  imageVer : W32 := 0
  imageSec : W32 := 0
  imageDigest : List Byte := []
  imageFlags : W16 := 0
  ownerSigned : Bool := false
  /-- its sections 0x0002, 0x0004 and 0x0005 (R465) -/
  signerKeys : List (List Byte) := []
  law : List Byte := []
  settings : List Byte := []
  /-- the boot floor as starts have raised it over its fuses (R466) -/
  floorRaised : W32 := 0
  flash : SMap Byte := []
  flBuf : SMap Byte := []
  /-- next record of the journal mirror, 0 to 4,095 (R462) -/
  mirrorNext : Nat := 0
  deriving DecidableEq, Repr

/-! ## What leaves the block -/

/-- One emission at the block's ports, newest last in `State.out`. -/
inductive Out where
  /-- data of a register or BAR2 read, or its completion status -/
  | readData (fn bar off : Nat) (data : List Byte)
  | bar2Data (addr : Nat) (data : List Byte)
  | unsupportedRequest (fn bar off : Nat)
  | completerAbort (addr : Nat)
  /-- a write to host memory: function, address, bytes; relaxed ordering -/
  | hostWrite (fn : Nat) (addr : Nat) (bytes : List Byte) (relaxed : Bool)
  | msix (fn vec : Nat)
  /-- a read request to host memory: function, address, length -/
  | hostRead (fn : Nat) (addr len : Nat)
  /-- a frame on a ring port: link word, header, payload, CRC-32C, and the blocks of the lanes that carry it, each after its lane's
  number (R388, R390) -/
  | ringFrame (p : Port) (link : W64) (header payload : List Byte) (crc : W32) (blocks : List (Nat × BitVec 66))
  /-- an acknowledgement block on a ring port, with the blocks of its lanes (R392) -/
  | ringAck (p : Port) (expect : Nat) (nak : Bool) (blocks : List (Nat × BitVec 66))
  /-- a stomp block on a ring port, with the blocks of its lanes (R395) -/
  | stomp (p : Port) (blocks : List (Nat × BitVec 66))
  /-- a serve pattern on transmit lane 0 of a ring port, one cell of 640 ns after the other, true where it is on (R400) -/
  | serve (p : Port) (cells : List Bool)
  | sideband (bytes : List Byte)
  /-- the six bytes of a gate-on command on a lane (R158) -/
  | gateOnCommand (c : Nat) (bytes : List Byte)
  /-- what a writer has laid down between gate-on and gate-off -/
  | segment (c : Nat) (bits : List Bool)
  | gateOff (c : Nat)
  /-- 66-bit blocks on a writer link, bit 0 the first sent (R157) -/
  | linkBlocks (link : Nat) (blocks : List (BitVec 66))
  | motSync
  | motionFrame (line : Nat) (frame : W32)
  | motionReleased
  /-- WLCLK and every writer link stop (R483) -/
  | writerLinksOff
  | cartridgeMemory (bytes : List Byte)
  | sensorBus (bytes : List Byte)
  | accessError
  deriving DecidableEq, Repr

/-! ## The state -/

/-- Everything the spec gives the machine, the queue of commands that wait, and the model's own counter for free values. -/
structure State where
  pending : List Instr := []
  /-- the register file, key: offset in BAR0 of the physical function -/
  regs : SMap W32 := []
  cores : SMap Core := []
  load : Load := {}
  accepted : SMap (List Cmd) := []
  held : List Held := []
  nextSeq : Nat := 0
  /-- while a commit's actions are carried out, the transaction they are of (R330); 0 otherwise -/
  txMark : Nat := 0
  txr : SMap W64 := []
  /-- tile memory, a list of `Host.Cell`: byte o of tile t at 4,096 t + o (R246); the records of region 0 are in `tiles` -/
  mem : SMap Byte := []
  /-- bytes of tile memory whose parity bit does not match (R247) -/
  located : SMap Bool := []
  tiles : SMap TileRec := []
  scrubAt : Nat := 256
  scrubCount : Nat := 0
  lapStartMs : Nat := 0
  bufs : SMap Buf := []
  free : SMap (List Nat) := []
  queues : SMap Queue := []
  items : SMap W128 := []
  lanes : SMap Lane := []
  slotLane : SMap (Option Nat) := []
  /-- the model's own: bodies that compression lanes have made (R239; no state of the hardware) -/
  coded : List Coded := []
  keys : SMap KeySlot := []
  /-- the holder of CIP_LOCK has left running: its message ends with its commands accepted before this one (R350) -/
  lockEnd : Option Nat := none
  rchans : SMap RChan := []
  /-- channel groups under calibration (R147) -/
  calib : List Nat := []
  fmt : Fmt := {}
  wrc : Wrc := {}
  mot : Mot := {}
  hst : Hst := {}
  rng : Rng := {}
  ump : Ump := {}
  team : Team := {}
  pwr : Pwr := {}
  boot : Boot := {}
  /-- AON memory (R451) -/
  aon : SMap Byte := []
  /-- milliseconds since VIN power-on, on the AON timer (R401, R452) -/
  aonMs : Nat := 0
  out : List Out := []
  /-- the model's own: how many free values have been taken (no state of the hardware) -/
  freeCtr : Nat := 0
  deriving DecidableEq, Repr

/-- The block right after VIN power-on (reset kind 0), before boot step S0: every register at its Reset column, every
memory unlisted, no command waiting.
DEDUCED: log entry 1. -/
def State.reset : State := {}

end Sys2Proof.Machine
end

