-- ==== Sys2Proof/Machine/Ops.lean ====
section
/-!
DEFINITION. Reading and writing the register file by field, the counters of R342 and the sticky flags of R3, and the small
updates of `State` that every meaning is written with.
-/
namespace Sys2Proof.Machine

/-- The outcome of a step of this block. -/
abbrev Res := Host.Outcome State Fault Refusal

/-- The bits of a field in its register. -/
def Field.mask (f : Field) : W32 := BitVec.ofNat 32 ((2 ^ f.width - 1) <<< f.lo)

/-- The value of a field in a register's word. -/
def Field.get (f : Field) (v : W32) : Nat := v.toNat >>> f.lo % 2 ^ f.width

/-- A register's word with one field replaced. -/
def Field.put (f : Field) (v : W32) (x : Nat) : W32 :=
  (v &&& ~~~f.mask) ||| (BitVec.ofNat 32 ((x % 2 ^ f.width) <<< f.lo))

/-- The offset of register `i` of a field's array. -/
def Field.addr (f : Field) (i : Nat) : Nat := f.base + f.stride * i

/-- The value with every bit of a field set. -/
def Field.ones (f : Field) : Nat := 2 ^ f.width - 1

/-- The word stored at an offset of the register file. -/
def State.reg (s : State) (a : Nat) : W32 := s.regs.get resetOf a

/-- The register file with one word replaced. -/
def State.setReg (s : State) (a : Nat) (v : W32) : State := { s with regs := s.regs.set resetOf a v }

/-- A field of register `i` of its array. -/
def State.fld (s : State) (f : Field) (i : Nat := 0) : Nat := f.get (s.reg (f.addr i))

/-- A one-bit field as a truth value. -/
def State.flag (s : State) (f : Field) (i : Nat := 0) : Bool := s.fld f i != 0

/-- The state with a field replaced. -/
def State.setFld (s : State) (f : Field) (x : Nat) (i : Nat := 0) : State :=
  s.setReg (f.addr i) (f.put (s.reg (f.addr i)) x)

/-- The state with a one-bit field set or cleared. -/
def State.setFlag (s : State) (f : Field) (b : Bool) (i : Nat := 0) : State := s.setFld f b.toNat i

/-- The state with a W1C or status flag set by the hardware. -/
def State.raise (s : State) (f : Field) (i : Nat := 0) : State := s.setFld f 1 i

/-- A counter advanced by `n`; it stops at its all-ones value (R112, R342). -/
def State.bump (s : State) (f : Field) (n : Nat := 1) (i : Nat := 0) : State :=
  s.setFld f (min (s.fld f i + n) f.ones) i

/-- A field read as a signed number. -/
def State.sfld (s : State) (f : Field) (i : Nat := 0) : Int :=
  (BitVec.ofNat f.width (s.fld f i)).toInt

/-- The state with a signed value put in a field. -/
def State.setSfld (s : State) (f : Field) (x : Int) (i : Nat := 0) : State :=
  s.setFld f (BitVec.ofInt f.width x).toNat i

/-- An emission of the block, after those before it.
DESIGN CHOICE: log entry 83. -/
def State.emit (s : State) (o : Out) : State := { s with out := s.out ++ [o] }

/-- A free value was taken: the counter the next one is drawn by moves on. -/
def State.nextFree (s : State) : State := { s with freeCtr := s.freeCtr + 1 }

/-- `f` applied to the state for every element of a list, in order. -/
def State.each {α : Type} (s : State) (l : List α) (f : State → α → State) : State := l.foldl f s

end Sys2Proof.Machine
end

