-- ==== Sys2Proof/Machine/Tiles.lean ====
section
/-!
DEFINITION. Tile memory (R246 to R254): what a byte reads as, a write to one tile, a full verify and its correction, and
verification at use. Nothing here reports to the umpire; the tiles poisoned on the way are returned for the caller to report.
-/
namespace Sys2Proof.Machine

/-- What an unlisted byte of tile memory reads as (DESIGN CHOICE, log entry 5). -/
def memDefault (_ : Nat) : Byte := 0

/-- The canonical form of tile memory: addresses strictly rising, and no entry equal to what an unlisted address reads as. -/
abbrev Memory.wf (m : List Host.Cell) : Bool := SMap.wf memDefault m

/-- How many QDR-IV dies are in service, D of R246. -/
def State.dies (s : State) : Nat :=
  let d := s.fld F.TIL_SIZE.DIES
  d % 2 + d / 2 % 2 + d / 4 % 2 + d / 8 % 2

/-- How many tiles there are (R246). -/
def State.tileCount (s : State) : Nat := 16384 * s.dies

/-- A raw byte of tile memory, by its debug address (R246).
DESIGN CHOICE: log entry 5. -/
def State.memByte (s : State) (a : Nat) : Byte := s.mem.get memDefault a

/-- Raw bytes of tile memory in a row. -/
def State.memBytes (s : State) (a n : Nat) : List Byte := s.mem.slice memDefault a n

/-- Tile memory with bytes in a row replaced; their parity is good again (R247). -/
def State.memStore (s : State) (a : Nat) (l : List Byte) : State :=
  { s with mem := s.mem.store memDefault a l, located := s.located.clear a l.length }

/-- The checks and metadata of a tile. -/
def State.tileRec (s : State) (t : Nat) : TileRec := s.tiles.get (fun _ => {}) t

/-- The state with the checks and metadata of a tile replaced. -/
def State.setTileRec (s : State) (t : Nat) (r : TileRec) : State := { s with tiles := s.tiles.set (fun _ => {}) t r }

/-- Whether a tile lies in a strong region (R248).
DEDUCED: log entry 78. -/
def State.strong (s : State) (t : Nat) : Bool :=
  let r := t / 256
  decide (0 < r) && decide (r < 64 * s.dies) && (s.fld F.TIL_REGION.STRONG (r / 32)).testBit (r % 32)

/-- The located bytes of a range of a tile that lie below its FILL (R247, R253).
DEDUCED: log entry 33. -/
def State.locatedIn (s : State) (t lo n : Nat) : List Nat :=
  let base := 4096 * t
  ((s.located.filter fun e => e.2 && decide (base + lo ≤ e.1) && decide (e.1 < base + lo + n)).map fun e => e.1 - base).filter
    fun o => decide (o < (s.tileRec t).fill)

/-- The CRC-32C register after one byte and the zero bytes that follow it in a tile: what a change of that byte by `e` does
to the CRC-32C of the tile. -/
def crcLin (e : Byte) (i : Nat) : W32 :=
  BitVec.ofNat 32 ((List.range (4095 - i)).foldl (fun r _ => crc32cByte r 0) (crc32cByte 0 e))

/-- How a full verify of a tile ended. -/
inductive Verdict where
  | pass | corrected | uncorrectable
  deriving DecidableEq, Repr

/-- The corrections that R253 finds for a tile: byte offsets and what to XOR there; none when it is uncorrectable. -/
def corrections (r : TileRec) (loc : List Nat) : Option (List (Nat × Byte)) :=
  if r.recBad then none
  else match loc with
    | [] => if r.crcDiff = 0 then some [] else none
    | [i] => if r.qDiff = gfMul (gfPow i) r.pDiff then some [(i, r.pDiff)] else none
    | [i, j] =>
      if i % 255 ≠ j % 255 then
        let a := gfPow i
        let b := gfPow j
        let ei := gfDiv (r.qDiff ^^^ gfMul b r.pDiff) (a ^^^ b)
        some [(i, ei), (j, r.pDiff ^^^ ei)]
      else
        let ok := (List.range 256).filter fun k =>
          decide (k ≠ 0) && r.crcDiff == (crcLin (BitVec.ofNat 8 k) i ^^^ crcLin (r.pDiff ^^^ BitVec.ofNat 8 k) j)
        match ok with
        | [k] => some [(i, BitVec.ofNat 8 k), (j, r.pDiff ^^^ BitVec.ofNat 8 k)]
        | _ => none
    | _ => none

/-- The tile's record after corrections: what each does to the differences it holds. -/
def TileRec.fixed (r : TileRec) (c : List (Nat × Byte)) : TileRec :=
  c.foldl (fun r e => { r with
    crcDiff := r.crcDiff ^^^ crcLin e.2 e.1, pDiff := r.pDiff ^^^ e.2, qDiff := r.qDiff ^^^ gfMul (gfPow e.1) e.2 }) r

/-- A tile poisoned by an uncorrectable verify: POISON, TIL's flags and count (R253). -/
def State.poisonTile (s : State) (t : Nat) : State :=
  let s := s.setTileRec t { s.tileRec t with poison := true }
  ((s.raise F.TIL_STAT.POISONED).setFld F.TIL_STAT.LAST_TILE t).bump F.TIL_CNT.POIS_CNT

/-- A full verify of a strong tile (R253), with its corrections written back. -/
def State.verifyTile (s : State) (t : Nat) : State × Verdict :=
  let r := s.tileRec t
  match corrections r (s.locatedIn t 0 4096) with
  | none => (s.poisonTile t, .uncorrectable)
  | some c =>
    let r' := r.fixed c
    if r'.crcDiff ≠ 0 then (s.poisonTile t, .uncorrectable)
    else if c.isEmpty then (s.setTileRec t { r with verified := true }, .pass)
    else
      let s := c.foldl (fun s e => s.memStore (4096 * t + e.1) [s.memByte (4096 * t + e.1) ^^^ e.2]) s
      let s := s.setTileRec t { r' with verified := true, corr := min (r.corr + 1) 255 }
      ((s.raise F.TIL_STAT.CORRECTED).bump F.TIL_CNT.CORR_CNT, .corrected)

/-- A write to one tile (R250), after the verify that a located byte among the bytes it replaces asks for (R251). The second
component says whether that verify poisoned the tile. -/
def State.tileWrite (s : State) (t o : Nat) (l : List Byte) (mark : Bool) : State × Bool :=
  if l.isEmpty then (s, false)
  else
    let hit := s.strong t && !(s.tileRec t).poison && !(s.locatedIn t o l.length).isEmpty
    let (s, bad) := if hit then (fun p => (p.1, p.2 == Verdict.uncorrectable)) (s.verifyTile t) else (s, false)
    let r := s.tileRec t
    let s := if r.fill < o then s.memStore (4096 * t + r.fill) (List.replicate (o - r.fill) 0) else s
    let s := s.memStore (4096 * t + o) l
    let r := if bad then { r with recBad := false, crcDiff := 0, pDiff := 0, qDiff := 0 } else r
    (s.setTileRec t { r with fill := max r.fill (o + l.length), verified := false, poison := r.poison || mark }, bad)

/-- What a use of bytes of a tile does before they are delivered (R252): the full verify it asks for. A bad check record makes any
tile uncorrectable (R249). The second component says whether the tile is poisoned now. -/
def State.tileUse (s : State) (t o n : Nat) : State × Bool :=
  let r := s.tileRec t
  if r.poison || n == 0 then (s, false)
  else if r.recBad then (s.poisonTile t, true)
  else if r.fill ≤ o then (s, false)
  else
    let loc := !(s.locatedIn t o n).isEmpty
    if s.strong t then
      if !r.verified || loc then (fun p => (p.1, p.2 == Verdict.uncorrectable)) (s.verifyTile t) else (s, false)
    else if loc then (s.poisonTile t, true)
    else (s, false)

/-- The bytes a read of a tile delivers: zero at or above FILL (R251). -/
def State.tileBytes (s : State) (t o n : Nat) : List Byte :=
  let k := min n ((s.tileRec t).fill - o)
  s.memBytes (4096 * t + o) k ++ List.replicate (n - k) 0

/-- A range of a buffer that starts in tile `t0`, cut at tile boundaries: tile, first byte in it, number of bytes. -/
def spansAux : Nat → Nat → Nat → Nat → List (Nat × Nat × Nat)
  | 0, _, _, _ => []
  | k + 1, t, o, n =>
    if n = 0 then [] else
      let m := min n (4096 - o)
      (t, o, m) :: spansAux k (t + 1) 0 (n - m)

/-- The tiles of `n` bytes at offset `off` of a buffer that starts at tile `t0`. -/
def spans (t0 off n : Nat) : List (Nat × Nat × Nat) :=
  spansAux (n / 4096 + 2) (t0 + off / 4096) (off % 4096) n

/-- A write over several tiles, and the tiles it found uncorrectable. -/
def State.rangeWrite (s : State) (mark : Bool) : List (Nat × Nat × Nat) → List Byte → State × List Nat
  | [], _ => (s, [])
  | (t, o, n) :: rest, l =>
    let (s, bad) := s.tileWrite t o (l.take n) mark
    let (s, more) := State.rangeWrite s mark rest (l.drop n)
    (s, if bad then t :: more else more)

/-- The verifies of a use over several tiles, and the tiles it poisoned. -/
def State.rangeUse (s : State) : List (Nat × Nat × Nat) → State × List Nat
  | [] => (s, [])
  | (t, o, n) :: rest =>
    let (s, bad) := s.tileUse t o n
    let (s, more) := State.rangeUse s rest
    (s, if bad then t :: more else more)

/-- The bytes over several tiles, as a read delivers them. -/
def State.rangeBytes (s : State) (l : List (Nat × Nat × Nat)) : List Byte :=
  l.flatMap fun e => s.tileBytes e.1 e.2.1 e.2.2

/-- Whether any byte of a range carries the poison mark (R255). -/
def State.rangeMarked (s : State) (l : List (Nat × Nat × Nat)) : Bool :=
  l.any fun e => (s.tileRec e.1).poison

end Sys2Proof.Machine
end

