-- ==== Sys2Proof/Machine/Handles.lean ====
section
/-!
DEFINITION. Handles, tile addresses and the checks on use (R262 to R265), and the status codes (R341).
-/
namespace Sys2Proof.Machine

/-! ## Status codes (R341) -/

def St.OK : W16 := 0x0000
def St.NO_GAIN : W16 := 0x0001
def St.EMPTY : W16 := 0x0002
def St.NOT_READY : W16 := 0x0003
def St.BAD_PARAM : W16 := 0x0010
def St.BAD_HANDLE : W16 := 0x0011
def St.BAD_OWNER : W16 := 0x0012
def St.BAD_FREE : W16 := 0x0013
def St.TX_ABORT : W16 := 0x0014
def St.POISON : W16 := 0x0020
def St.CRC_FAIL : W16 := 0x0021
def St.KEY_EMPTY : W16 := 0x0030
def St.KEY_BUSY : W16 := 0x0031
def St.KEY_GONE : W16 := 0x0032
def St.TAG_FAIL : W16 := 0x0033
def St.MEDIA_LOST : W16 := 0x0040
def St.STRIPE_LOST : W16 := 0x0041
def St.TAPE_FULL : W16 := 0x0042

/-! ## Owner codes (R263) -/

def Owner.none : Nat := 0x00
def Owner.cores : Nat := 0x01
def Owner.cmp : Nat := 0x10
def Owner.cip : Nat := 0x11
def Owner.fmt : Nat := 0x12
def Owner.team : Nat := 0x13
def Owner.hst : Nat := 0x14
def Owner.rngEast : Nat := 0x20
def Owner.rngWest : Nat := 0x21
/-- KEY and TIL take buffers too (R11), but R263 gives them no code: these two stand for them, outside the 8 bits of a code.
DESIGN CHOICE: log entry 22. -/
def Owner.key : Nat := 0x100
def Owner.til : Nat := 0x101

/-- The owner code that registers show; that of KEY and of TIL is open.
DESIGN CHOICE: log entry 22. -/
def ownerCode (o : Nat) : Nat := if o < 0x100 then o else (Config.freeByte o).toNat

/-- The class of a handle (R262). -/
def hClass (h : W32) : Nat := h.toNat / 2 ^ 29
/-- The buffer index of a handle (R262). -/
def hIndex (h : W32) : Nat := h.toNat / 256 % 2 ^ 21
/-- The generation of a handle (R262). -/
def hGen (h : W32) : Byte := BitVec.ofNat 8 h.toNat
/-- The handle of a buffer (R262). -/
def mkHandle (c n : Nat) (g : Byte) : W32 := BitVec.ofNat 32 (c * 2 ^ 29 + n * 256 + g.toNat)

/-- T_c of R260: tiles in one buffer of a class. -/
def classTiles (c : Nat) : Nat := 4 ^ c
/-- Bytes in one buffer of a class (R260). -/
def classSize (c : Nat) : Nat := 4096 * classTiles c

/-- The key of a buffer in `State.bufs`. -/
def bufKey (c n : Nat) : Nat := c * 2 ^ 21 + n

/-- The record of a buffer. -/
def State.buf (s : State) (c n : Nat) : Buf := s.bufs.get (fun _ => {}) (bufKey c n)
/-- The record of the buffer a handle names. -/
def State.bufOf (s : State) (h : W32) : Buf := s.buf (hClass h) (hIndex h)
/-- The state with a buffer's record replaced. -/
def State.setBuf (s : State) (c n : Nat) (b : Buf) : State := { s with bufs := s.bufs.set (fun _ => {}) (bufKey c n) b }
/-- The state with the record of the buffer a handle names replaced. -/
def State.setBufOf (s : State) (h : W32) (b : Buf) : State := s.setBuf (hClass h) (hIndex h) b

/-- The first tile of the buffer a handle names (R260, R262). -/
def State.bufTile (s : State) (h : W32) : Nat :=
  s.fld F.POOL_CLASS.BASE (hClass h) + hIndex h * classTiles (hClass h)

/-- Check 1 of R264: class enabled and index below COUNT. -/
def State.handleInClass (s : State) (h : W32) : Bool :=
  s.flag F.POOL_CLASS.EN (hClass h) && decide (hIndex h < s.fld F.POOL_COUNT.COUNT (hClass h))

/-- Check 2 of R264: buffer allocated at the handle's generation. -/
def State.handleLive (s : State) (h : W32) : Bool :=
  (s.bufOf h).owner != Owner.none && (s.bufOf h).gen == hGen h

/-- Checks 1 to 3 of R264, without alignment or owner. -/
def State.checkRange (s : State) (h : W32) (off : Int) (len : Nat) : Option W16 :=
  if !s.handleInClass h || !s.handleLive h then some St.BAD_HANDLE
  else if off < 0 ∨ 2 ^ 32 ≤ off ∨ (classSize (hClass h) : Int) < off + len then some St.BAD_HANDLE
  else none

/-- The checks of R264 in order: `align` is the natural alignment asked of a core's access (1 for other parties), `party` the
owner code of the accessing party (none where R265 exempts the access). The status of the first check that fails. -/
def State.checkUse (s : State) (h : W32) (off : Int) (len align : Nat) (party : Option Nat) : Option W16 :=
  match s.checkRange h off len with
  | some e => some e
  | none =>
    if off % align ≠ 0 then some St.BAD_PARAM
    else match party with
      | some p => if (s.bufOf h).owner = p then none else some St.BAD_OWNER
      | none => none

/-- The spans of a range of the buffer a handle names. -/
def State.spansOf (s : State) (h : W32) (off n : Nat) : List (Nat × Nat × Nat) := spans (s.bufTile h) off n

/-- The handle in `CORE_TXR_BASE`. -/
def State.imageHandle (s : State) : W32 := BitVec.ofNat 32 (s.fld F.CORE_TXR_BASE.HANDLE)

/-- Whether `CORE_TXR_BASE` names a valid buffer (R342): class 4, live, in a strong region. -/
def State.imageOk (s : State) : Bool :=
  let h := s.imageHandle
  hClass h == 4 && s.handleInClass h && s.handleLive h && s.strong (s.bufTile h)

/-- Whether a handle names the transactional image's buffer (R329). -/
def State.isImage (s : State) (h : W32) : Bool :=
  s.imageOk && hClass s.imageHandle == hClass h && hIndex s.imageHandle == hIndex h

/-- Whether a tile lies in the transactional image's buffer (R329). -/
def State.imageTile (s : State) (t : Nat) : Bool :=
  s.imageOk && decide (s.bufTile s.imageHandle ≤ t) && decide (t < s.bufTile s.imageHandle + classTiles 4)

/-- The handle half of a tile address (R262). -/
def taHandle (a : W64) : W32 := BitVec.ofNat 32 (a.toNat / 2 ^ 32)
/-- The offset half of a tile address (R262). -/
def taOff (a : W64) : Nat := a.toNat % 2 ^ 32
/-- A tile address from its halves (R262). -/
def mkTa (h : W32) (off : Nat) : W64 := BitVec.ofNat 64 (h.toNat * 2 ^ 32 + off)

end Sys2Proof.Machine
end

