-- ==== Sys2Proof/Machine/Umpire.lean ====
section
/-!
DEFINITION. Sending a frame on a ring port (R390 to R392) and the umpire (R401 to R403): its windows, its log in tile memory
and the broadcast of own reports.
-/
namespace Sys2Proof.Machine

/-! ## Ring frames -/

/-- A port's state beside its registers. -/
def State.rport (s : State) : Port → RPort
  | .east => s.rng.east
  | .west => s.rng.west

/-- The state with a port's state replaced. -/
def State.setRport (s : State) (p : Port) (r : RPort) : State :=
  match p with
  | .east => { s with rng := { s.rng with east := r } }
  | .west => { s with rng := { s.rng with west := r } }

/-- The other port. -/
def Port.opp : Port → Port
  | .east => .west
  | .west => .east

/-- The frame header of R390. -/
def frameHeader (cls : Nat) (last : Bool) (dst src msg : Nat) (off total len : Nat) : List Byte :=
  leBytes 1 cls ++ leBytes 1 last.toNat ++ leBytes 2 dst ++ leBytes 2 src ++ leBytes 2 msg ++ leBytes 4 off ++
    leBytes 4 total ++ leBytes 2 len ++ leBytes 6 0

/-- The link word of R390; its CRC-16 runs over bits [63:16] from the most significant, as R42 runs over a header (log entry
12).
DEDUCED: log entry 12. -/
def linkWord (seq ack : Nat) (ackValid nak folded : Bool) (hops : Nat) : W64 :=
  let hi := seq % 4096 * 2 ^ 52 + ack % 4096 * 2 ^ 40 + ackValid.toNat * 2 ^ 39 + nak.toNat * 2 ^ 38 + folded.toNat * 2 ^ 37 +
    hops % 65536 * 2 ^ 16
  BitVec.ofNat 64 (hi + (crc16 (leBytes 6 (hi / 2 ^ 16)).reverse).toNat)

/-! ## Port states (RNG_PORTE and RNG_PORTW) -/

def PortSt.disabled : Nat := 0
def PortSt.training : Nat := 1
def PortSt.up : Nat := 2
def PortSt.parked : Nat := 3
def PortSt.down : Nat := 4

/-- STATE of a port's register. -/
def portField : Port → Field
  | .east => F.RNG_PORTE.STATE
  | .west => F.RNG_PORTW.STATE

/-- NBR_ID of a port's register. -/
def nbrField : Port → Field
  | .east => F.RNG_PORTE.NBR_ID
  | .west => F.RNG_PORTW.NBR_ID

/-- EN of a port. -/
def enField : Port → Field
  | .east => F.RNG_CTL.EAST_EN
  | .west => F.RNG_CTL.WEST_EN

/-- The state of a port. -/
def State.portState (s : State) (p : Port) : Nat := s.fld (portField p)

/-- Whether frames pass on a port: RUN, and its link up. -/
def State.portUp (s : State) (p : Port) : Bool := s.flag F.RNG_CTL.RUN && s.portState p == PortSt.up

/-! ## Lanes (R388) -/

/-- Blocks of a lane up to and with its next alignment block (R388). -/
def alignEvery : Nat := 16384

/-- A block on a lane, data or control, behind an alignment block where that is due; what an alignment block holds is open.
DESIGN CHOICE: log entry 101. -/
def TxLane.send (x : TxLane) (data : Bool) (payload : BitVec 64) : List (BitVec 66) × TxLane :=
  let (l, x) := if x.count % alignEvery = alignEvery - 1 then
      let (b, r) := linkBlock false Config.alignBlock x.scram
      ([b], { scram := r, count := x.count + 1 })
    else ([], x)
  let (b, r) := linkBlock data payload x.scram
  (l ++ [b], { scram := r, count := x.count + 1 })

/-- The payloads of a frame's blocks: eight bytes each; what fills up the last is open.
DESIGN CHOICE: log entry 101. -/
def blockPayloads (l : List Byte) : List (BitVec 64) :=
  let l := l ++ (List.range ((8 - l.length % 8) % 8)).map Config.padByte
  (List.range (l.length / 8)).map fun k => BitVec.ofNat 64 (natAt l (8 * k) 8)

/-- Payloads striped over four lanes, one block per lane in turn (R388): the first lane of the port is `base`, the next block goes to
lane `k` of it. -/
def stripe (base : Nat) : Nat → SMap TxLane → List (BitVec 64) → List (Nat × BitVec 66) × SMap TxLane
  | _, m, [] => ([], m)
  | k, m, v :: vs =>
    let (l, x) := (m.get (fun _ => {}) (base + k)).send true v
    let (r, m) := stripe base ((k + 1) % 4) (m.set (fun _ => {}) (base + k) x) vs
    (l.map (fun b => (k, b)) ++ r, m)

/-- The first lane of a port in `Rng.lanes`. -/
def laneBase : Port → Nat
  | .east => 0
  | .west => 4

/-- The bytes of a frame (R390). -/
def frameBytes (link : W64) (header payload : List Byte) : List Byte :=
  leBytes 8 link.toNat ++ header ++ payload ++ leBytes 4 (crc32c (header ++ payload)).toNat

/-- The lane blocks of a frame on a port, starting at lane 0, and the lanes after them (R388). -/
def State.frameBlocks (s : State) (p : Port) (link : W64) (header payload : List Byte) :
    List (Nat × BitVec 66) × SMap TxLane :=
  stripe (laneBase p) 0 s.rng.lanes (blockPayloads (frameBytes link header payload))

/-- A kept frame leaves on a port: its link word carries the acknowledgement and the NAK due to the other side (R392). -/
def State.ringEmit (s : State) (p : Port) (f : OutFrame) : State :=
  let r := s.rport p
  let link := linkWord f.seq r.expect true r.nakDue f.folded f.hops
  let (blocks, lanes) := s.frameBlocks p link f.header f.payload
  let s := s.emit (.ringFrame p link f.header f.payload (crc32c (f.header ++ f.payload)) blocks)
  let s := { s with rng := { s.rng with lanes := lanes } }
  s.setRport p { r with ackDue := false, nakDue := false }

/-- The payload of a control block leaves on transmit lane 0 of a port: the lane's blocks, and the state after them (R392, R395).
DESIGN CHOICE: log entry 101. -/
def State.laneControl (s : State) (p : Port) (payload : BitVec 64) : State × List (Nat × BitVec 66) :=
  let (l, x) := (s.rng.lanes.get (fun _ => {}) (laneBase p)).send false payload
  ({ s with rng := { s.rng with lanes := s.rng.lanes.set (fun _ => {}) (laneBase p) x } }, l.map fun b => (0, b))

/-- The precedence of a frame that waits (R395): fault reports, then what is forwarded, then what this formatter originates. -/
def OutFrame.rank (f : OutFrame) : Nat :=
  if f.header.head? = some 1 then 0 else if f.hops ≠ 0 then 1 else 2

/-- A frame put among those that wait, behind those of its own precedence (R395). -/
def waitIn (f : OutFrame) : List OutFrame → List OutFrame
  | [] => [f]
  | x :: xs => if f.rank < x.rank then f :: x :: xs else x :: waitIn f xs

/-- Whether a frame may leave on a port now: the port carries frames (R404), and fewer than 256 are unacknowledged (R392). -/
def State.mayLeave (s : State) (p : Port) : Bool := s.portUp p && decide ((s.rport p).unacked.length < 256)

/-- A frame goes out on a port: it takes the link's next sequence and leaves, or waits while the port carries no frames or 256 are
unacknowledged (R392, R404). -/
def State.ringPut (s : State) (p : Port) (folded : Bool) (hops : Nat) (header payload : List Byte) : State :=
  let r := s.rport p
  let f : OutFrame := { seq := r.nextSeq, folded := folded, hops := hops, header := header, payload := payload }
  if s.mayLeave p then
    let s := s.setRport p { r with unacked := r.unacked ++ [f], nextSeq := (r.nextSeq + 1) % 4096 }
    s.ringEmit p f
  else s.setRport p { r with held := waitIn f r.held }

/-- Frames that waited leave, while they may (R392, R404). -/
def State.releaseHeld (s : State) (p : Port) : List OutFrame → State
  | [] => s
  | f :: fs =>
    let r := s.rport p
    if s.mayLeave p then
      let f := { f with seq := r.nextSeq }
      let s := s.setRport p { r with held := r.held.drop 1, unacked := r.unacked ++ [f], nextSeq := (r.nextSeq + 1) % 4096 }
      State.releaseHeld (s.ringEmit p f) p fs
    else s

/-- This formatter's device ID (R398). -/
def State.devId (s : State) : Nat := s.fld F.RNG_CTL.ID

/-- A ring-control frame (R391) leaves on a port by itself: it is one message of this formatter, with the link's next sequence, and
is not kept for acknowledgement; its payload is the code of its kind and what the kind carries.
DESIGN CHOICE: log entry 101. -/
def State.ringControl (s : State) (p : Port) (kind dst : Nat) (b : List Byte) : State :=
  let b := Config.ringControl kind :: b
  let h := frameHeader 0x03 true dst s.devId s.rng.nextMsg.toNat 0 b.length b.length
  let s := { s with rng := { s.rng with nextMsg := s.rng.nextMsg + 1 } }
  s.ringEmit p { seq := (s.rport p).nextSeq, folded := false, hops := 0, header := h, payload := b }

/-- HELLO: this formatter's ID and serial (R391, R398).
DESIGN CHOICE: log entry 101. -/
def State.sendHello (s : State) (p : Port) : State :=
  s.ringControl p 0 0xFFFF (leBytes 2 s.devId ++ leBytes 8 Config.serial.toNat)

/-- PARK, to the neighbour (R389, R391).
DESIGN CHOICE: log entry 101. -/
def State.sendPark (s : State) (p : Port) : State := s.ringControl p 1 (s.fld (nbrField p)) []

/-- A broadcast this formatter originates leaves on the east port, or on the west one where east is a fold edge (log entry
13); with both ports fold edges, or RUN at 0, it leaves nowhere.
DEDUCED: log entry 13. -/
def State.ringBroadcast (s : State) (cls : Nat) (payload : List Byte) : State :=
  if !s.flag F.RNG_CTL.RUN then s
  else if s.rng.east.foldEdge && s.rng.west.foldEdge then s
  else
    let p := if s.rng.east.foldEdge then Port.west else Port.east
    let h := frameHeader cls true 0xFFFF s.devId s.rng.nextMsg.toNat 0 payload.length payload.length
    let s := { s with rng := { s.rng with nextMsg := s.rng.nextMsg + 1 } }
    s.ringPut p false 0 h payload

/-! ## Fault reports -/

/-- The 32 bytes of a fault report (R401). -/
def reportBytes (code origin reporter : Nat) (summary own ring : Bool) (detail : Nat) (count ms : Nat) : List Byte :=
  let body := leBytes 2 code ++ leBytes 2 origin ++ leBytes 2 reporter ++
    leBytes 1 (summary.toNat + 2 * own.toNat + 4 * ring.toNat) ++ leBytes 1 0 ++ leBytes 8 detail ++ leBytes 4 count ++
    leBytes 4 ms ++ leBytes 4 0
  body ++ leBytes 4 (crc32c body).toNat

/-- One stream core. -/
def State.core (s : State) (n : Nat) : Core := s.cores.get (fun _ => {}) n
/-- The state with one core replaced. -/
def State.setCore (s : State) (n : Nat) (c : Core) : State := { s with cores := s.cores.set (fun _ => {}) n c }
/-- SIGNAL of a core set (R300). -/
def State.signal (s : State) (n : Nat) : State :=
  let c := s.core n
  s.setCore n { c with evEdge := c.evEdge ||| (1 <<< 9) }

/-- Unread reports of the log, 0 to 128 (R403): equal pointers are a full log where HEAD caught up with TAIL.
DEDUCED: log entry 14. -/
def State.logUnread (s : State) : Nat :=
  let n := (s.fld F.UMP_PTR.HEAD + 128 - s.fld F.UMP_PTR.TAIL) % 128
  if n = 0 && s.ump.full then 128 else n

/-- HEAD moves past a report written there; the log is full where it so reaches TAIL (R403). -/
def State.logNext (s : State) : State :=
  let h := (s.fld F.UMP_PTR.HEAD + 1) % 128
  let s := s.setFld F.UMP_PTR.HEAD h
  { s with ump := { s.ump with full := h == s.fld F.UMP_PTR.TAIL } }

/-- The tile of the log buffer while the log runs and its handle passes the checks of R264 that R265 leaves. -/
def State.logTile (s : State) : Option Nat :=
  let h := BitVec.ofNat 32 (s.fld F.UMP_LOG.HANDLE)
  if s.flag F.UMP_CTL.RUN && hClass h == 0 && (s.checkUse h 0 4096 1 none).isNone then some (s.bufTile h) else none

/-- A report written into one slot of the log, and SIGNAL to the core that watches it; with the tiles the write poisoned. -/
def State.logStore (s : State) (tile slot : Nat) (partner : Bool) (b : List Byte) : State × List Nat :=
  let (s, bad) := s.tileWrite tile (32 * slot) b false
  let s := { s with ump := { s.ump with partner := s.ump.partner.set (fun _ => false) slot partner } }
  let s := (s.bump F.UMP_CNT.FORWARDED).signal (s.fld F.UMP_CTL.CORE)
  (s, if bad then [tile] else [])

/-- The oldest unread slot of the log that holds a partner report. -/
def State.oldestPartner (s : State) : Option Nat :=
  ((List.range s.logUnread).map fun k => (s.fld F.UMP_PTR.TAIL + k) % 128).find? fun x => s.ump.partner.get (fun _ => false) x

/-- A report goes to the log (R403): written at HEAD; over the oldest unread partner report where an own report finds the log
full; else not at all. The components say whether it was written and which tiles the write poisoned.
DEDUCED: log entry 14. -/
def State.logWrite (s : State) (partner : Bool) (b : List Byte) : State × Bool × List Nat :=
  match s.logTile with
  | none => (s, false, [])
  | some tile =>
    if s.logUnread < 128 then
      let (s, bad) := s.logStore tile (s.fld F.UMP_PTR.HEAD) partner b
      (s.logNext, true, bad)
    else if partner then (s, false, [])
    else match s.oldestPartner with
      | some slot => let (s, bad) := s.logStore tile slot false b; (s, true, bad)
      | none => (s, false, [])

/-- One drop of a report counted (R403). -/
def State.countDrop (s : State) : State :=
  ({ s with ump := { s.ump with dropsSince := s.ump.dropsSince + 1 } }).bump F.UMP_CNT.DROPPED

/-- Whether a window of a pair is open (R402). -/
def State.windowOf (s : State) (origin code : Nat) : Option Window :=
  s.ump.windows.find? fun w => w.origin.toNat == origin && w.code.toNat == code

/-- The first partner window, the one that opened earliest (R403). -/
def State.firstPartner (s : State) : Option Window := s.ump.windows.find? fun w => !w.own

/-- A report as it reaches the umpire: code, origin, reporter, whether it is this formatter's own, detail. -/
structure Report where
  code : Nat
  origin : Nat
  reporter : Nat
  own : Bool
  detail : Nat
  deriving DecidableEq, Repr

/-- The umpire's writing of a first report or a summary: to the log, and, for an own one, to the ring (R402). -/
def State.umpWrite (s : State) (r : Report) (summary : Bool) (count : Nat) : State × Bool × List Nat :=
  let b := reportBytes r.code r.origin r.reporter summary r.own (!r.own) r.detail count s.aonMs
  let (s, ok, bad) := s.logWrite (!r.own) b
  let s := if ok then s else s.countDrop
  (if r.own then s.ringBroadcast 0x01 b else s, ok, bad)

/-- A window closes; a nonzero count writes its summary (R402). -/
def State.closeWindow (s : State) (w : Window) : State × List Nat :=
  let s := { s with ump := { s.ump with windows := s.ump.windows.erase w } }
  if w.count = 0 then (s, [])
  else
    let (s, _, bad) := s.umpWrite ⟨w.code.toNat, w.origin.toNat, w.reporter.toNat, w.own, w.detail.toNat⟩ true w.count
    (s, bad)

/-- A report opens its window and is written at once (R402). -/
def State.openWindow (s : State) (r : Report) : State × List Nat :=
  let w : Window :=
    ⟨BitVec.ofNat 16 r.origin, BitVec.ofNat 16 r.code, BitVec.ofNat 16 r.reporter, r.own, 0, BitVec.ofNat 64 r.detail, s.aonMs⟩
  let s := { s with ump := { s.ump with windows := s.ump.windows ++ [w] } }
  let (s, _, bad) := s.umpWrite r false 1
  (s, bad)

/-- One report judged by its window (R402, R403). -/
def State.umpTake (s : State) (r : Report) : State × List Nat :=
  match s.windowOf r.origin r.code with
  | some w =>
    let w' := { w with count := w.count + 1 }
    ({ s with ump := { s.ump with windows := s.ump.windows.map fun x => if x = w then w' else x } }, [])
  | none =>
    if s.ump.windows.length < 64 then s.openWindow r
    else if !r.own then (s.countDrop, [])
    else match s.firstPartner with
      | none => (s.countDrop, [])
      | some w =>
        let (s, bad) := s.closeWindow w
        let (s, bad') := s.openWindow r
        (s, bad ++ bad')

/-- The report of R403 that reports were dropped, when drops have happened and none has been written for 100 ms. -/
def State.dropReport (s : State) : State × List Nat :=
  if s.ump.dropsSince = 0 then (s, [])
  else
    let due := match s.ump.dropMs with
      | none => true
      | some t => decide (t + 100 ≤ s.aonMs)
    if !due then (s, [])
    else
      let b := reportBytes 0x0201 s.devId s.devId false true false s.ump.dropsSince 1 s.aonMs
      let (s, ok, bad) := s.logWrite false b
      if !ok then (s, bad)
      else
        let s := { s with ump := { s.ump with dropMs := some s.aonMs, dropsSince := 0 } }
        (s.ringBroadcast 0x01 b, bad)

/-- Reports taken in turn. A log write that poisons a tile of the log raises that tile's own report; `fuel` bounds that
chain, which the pair's window ends after one turn. -/
def State.umpAll (s : State) : Nat → List Report → State
  | 0, _ => s
  | _, [] => s
  | k + 1, r :: rs =>
    let (s, bad) := s.umpTake r
    let (s, bad') := s.dropReport
    let more := (bad ++ bad').map fun t => Report.mk 0x0801 s.devId s.devId true t
    State.umpAll s k (rs ++ more)

/-- An own fault report that names another device as origin reaches the umpire (R397, R402).
DEDUCED: log entry 15. -/
def State.reportOf (s : State) (origin code detail : Nat) : State := s.umpAll 8 [⟨code, origin, s.devId, true, detail⟩]

/-- An own fault report reaches the umpire (R402).
DEDUCED: log entry 15. -/
def State.report (s : State) (code : Nat) (detail : Nat) : State := s.reportOf s.devId code detail

/-- The reports of tiles that uncorrectable verifies poisoned (R253). -/
def State.reportTiles (s : State) (l : List Nat) : State := l.foldl (fun s t => s.report 0x0801 t) s

end Sys2Proof.Machine
end

