-- ==== Sys2Proof/Machine/Pools.lean ====
section
/-!
DEFINITION. Reads and writes of buffers through handles (R252 to R255), allocation and freeing (R266, R267), and the
hardware queues with their watermarks (R268 to R274).
-/
namespace Sys2Proof.Machine

/-! ## Buffer bytes -/

/-- A use of `n` bytes of a buffer (R252): the verifies it asks for with their reports, then the bytes and whether any
carries the poison mark (R255). The checks of R264 are the caller's. -/
def State.bufRead (s : State) (h : W32) (off n : Nat) : State × List Byte × Bool :=
  let sp := s.spansOf h off n
  let (s, bad) := s.rangeUse sp
  let s := s.reportTiles bad
  (s, s.rangeBytes sp, s.rangeMarked sp)

/-- A write of bytes into a buffer (R250), poisoning its tiles when the bytes derive from marked ones (R255). -/
def State.bufWrite (s : State) (h : W32) (off : Nat) (l : List Byte) (mark : Bool) : State :=
  let (s, bad) := s.rangeWrite mark (s.spansOf h off l.length) l
  s.reportTiles bad

/-- Whether TV3200 bus-error mode is on (R256). -/
def State.busErr (s : State) : Bool := s.flag F.TIL_CTL.BUSERR_MODE

/-! ## Allocation (R266) and freeing (R267) -/

/-- The classes a request for class `c` tries, in order: NEXT of each where it is greater than the class itself (R261). -/
def State.classChain (s : State) : Nat → Nat → List Nat
  | 0, _ => []
  | k + 1, c =>
    let n := s.fld F.POOL_CLASS.NEXT c
    c :: (if c < n ∧ n < 8 then State.classChain s k n else [])

/-- The free list of a class. -/
def State.freeList (s : State) (c : Nat) : List Nat := s.free.get (fun _ => []) c

/-- The state with a class's free list replaced. -/
def State.setFree (s : State) (c : Nat) (l : List Nat) : State := { s with free := s.free.set (fun _ => []) c l }

/-- The first class of a list whose free list holds a buffer. -/
def State.firstFree (s : State) : List Nat → Option (Nat × Nat)
  | [] => none
  | c :: cs => match s.freeList c with
    | n :: _ => some (c, n)
    | [] => State.firstFree s cs

/-- One allocation request (R266) for class `c` by a party with an owner code, and the core for the log (R263): the handle,
or none for EMPTY, which sets EMPTY_SEEN. -/
def State.alloc (s : State) (c owner core : Nat) : State × Option W32 :=
  match (if s.flag F.POOL_CTL.RUN then s.firstFree (s.classChain 8 c) else none) with
  | none => (s.raise F.POOL_STAT.EMPTY_SEEN, none)
  | some (k, n) =>
    let b := s.buf k n
    let s := s.setFree k (s.freeList k).tail
    (s.setBuf k n { b with owner := owner, core := core, provisional := false }, some (mkHandle k n b.gen))

/-- A failed free: counted, recorded and reported (R267). -/
def State.freeFailed (s : State) (h : W32) (st : W16) (req : Nat) : State :=
  let s := if st = St.BAD_OWNER then s.bump F.POOL_CNT.BAD_OWNER_CNT else s.bump F.POOL_CNT.BAD_FREE_CNT
  let s := s.raise F.POOL_STAT.BAD_FREE_SEEN
  let s := s.setFld F.POOL_LOG0.HANDLE h.toNat
  let s := (s.setFld F.POOL_LOG1.STATUS st.toNat).setFld F.POOL_LOG1.OWNER (ownerCode (s.bufOf h).owner)
  let s := s.setFld F.POOL_LOG1.REQ req
  s.report 0x0701 (h.toNat + st.toNat * 2 ^ 32 + req * 2 ^ 48)

/-- The checks of R267, in order; the status of the first that fails. -/
def State.freeCheck (s : State) (h : W32) (party : Nat) : Option W16 :=
  if !s.handleInClass h then some St.BAD_HANDLE
  else if !s.handleLive h then some St.BAD_FREE
  else if (s.bufOf h).owner ≠ party then some St.BAD_OWNER
  else none

/-- What a successful free does (R267): the buffer's tiles reset, its generation advanced, the buffer at the tail of its
free list. Buffers that hold a yealm READ has delivered are counted for pace (R211). -/
def State.freeBuf (s : State) (h : W32) : State :=
  let b := s.bufOf h
  let c := hClass h
  let s := { s with tiles := s.tiles.clear (s.bufTile h) (classTiles c) }
  let s := s.setBufOf h { owner := Owner.none, core := 0, gen := b.gen + 1, provisional := false }
  let s := if s.mot.ylmBufs.contains h.toNat then
      { s with mot := { s.mot with ryFreed := s.mot.ryFreed + 1, ylmBufs := s.mot.ylmBufs.filter (· != h.toNat) } }
    else s
  s.setFree c (s.freeList c ++ [hIndex h])

/-- A free by a party (R267), with its status. -/
def State.release (s : State) (h : W32) (party req : Nat) : State × W16 :=
  match s.freeCheck h party with
  | some e => (s.freeFailed h e req, e)
  | none => (s.freeBuf h, St.OK)

/-! ## Queues -/

/-- The pointers and watermark state of a queue. -/
def State.queue (s : State) (q : Nat) : Queue := s.queues.get (fun _ => {}) q
/-- The state with a queue's pointers and watermark state replaced. -/
def State.setQueue (s : State) (q : Nat) (x : Queue) : State := { s with queues := s.queues.set (fun _ => {}) q x }
/-- Whether a queue is enabled. -/
def State.qEnabled (s : State) (q : Nat) : Bool := s.flag F.QUE_CFG.EN q
/-- Depth of a queue in items. -/
def State.qDepth (s : State) (q : Nat) : Nat := 2 ^ s.fld F.QUE_CFG.DEPTH q
/-- Items a queue holds (R270). -/
def State.qCount (s : State) (q : Nat) : Nat :=
  let d := 2 * s.qDepth q
  ((s.queue q).wp + d - (s.queue q).rp) % d
/-- Whether a queue takes another item (R270). -/
def State.qRoom (s : State) (q : Nat) : Bool := s.qEnabled q && decide (s.qCount q < s.qDepth q)
/-- The place in the queue SRAM of the item a pointer names (R268). -/
def State.qSlot (s : State) (q p : Nat) : Nat := 16 * s.fld F.QUE_CFG.BASE q + p % s.qDepth q

/-- QW bits of one core set for a queue whose ABOVE changed (R273, R300). -/
def Core.watchEvent (c : Core) (q : Nat) : Core :=
  let hit (n : Nat) : W64 :=
    let w := c.qwatch.get (fun _ => 0) n
    if w.getLsbD 15 && w.toNat % 512 == q then 1 <<< n else 0
  { c with evEdge := c.evEdge ||| hit 0 ||| hit 1 ||| hit 2 ||| hit 3 }

/-- A queue event of R273, delivered to every core that watches the queue. -/
def State.queueEvent (s : State) (q : Nat) : State :=
  s.each (List.range 16) fun s n =>
    let c := s.core n
    if c.watchEvent q = c then s else s.setCore n (c.watchEvent q)

/-- ABOVE follows the item count (R273), and each change raises a queue event.
DEDUCED: log entry 81. -/
def State.watermark (s : State) (q : Nat) : State :=
  let x := s.queue q
  let n := s.qCount q
  let above := if x.above then !decide (n ≤ s.fld F.QUE_WM.LOW q) else decide (s.fld F.QUE_WM.HIGH q ≤ n)
  if above = x.above then s else (s.setQueue q { x with above := above }).queueEvent q

/-- The comparison of the pointer copies on every access (R272): on a mismatch the queue is emptied, counted and reported. -/
def State.qCompare (s : State) (q : Nat) : State :=
  let x := s.queue q
  if x.wp = x.wp2 ∧ x.rp = x.rp2 then s
  else
    let s := s.setQueue q { wp := 0, rp := 0, wp2 := 0, rp2 := 0, above := x.above }
    let s := s.watermark q
    let s := (s.bump F.QUE_GSTAT.QRESET).setFld F.QUE_GSTAT.LAST_Q q
    s.report 0x0601 q

/-- The comparison, where the queue is enabled: what a look for room does before it counts the items (R272). -/
def State.qChecked (s : State) (q : Nat) : State := if s.qEnabled q then s.qCompare q else s

/-- An item put to an enabled queue (R270), and whether it was stored. -/
def State.qput (s : State) (q : Nat) (item : W128) : State × Bool :=
  let s := s.qCompare q
  if s.qCount q < s.qDepth q then
    let x := s.queue q
    let p := (x.wp + 1) % (2 * s.qDepth q)
    let s := { s with items := s.items.set (fun _ => 0) (s.qSlot q x.wp) (item &&& ((1 <<< 127) - 1)) }
    ((s.setQueue q { x with wp := p, wp2 := p }).watermark q, true)
  else (s, false)

/-- An item taken from an enabled queue (R269): none when it is empty. -/
def State.qget (s : State) (q : Nat) : State × Option W128 :=
  let s := s.qCompare q
  if s.qCount q = 0 then (s, none)
  else
    let x := s.queue q
    let p := (x.rp + 1) % (2 * s.qDepth q)
    let item := s.items.get (fun _ => 0) (s.qSlot q x.rp)
    ((s.setQueue q { x with rp := p, rp2 := p }).watermark q, some (item ||| (1 <<< 127)))

/-- Whether FLOWk_N is driven low (R274): by FORCE, or by a queue mapped to it that is above; in NAP and OFF the die that holds QUE is
unpowered, and every pin is released.
DEDUCED: log entry 81. -/
def State.flowLow (s : State) (k : Nat) : Bool :=
  decide (s.fld F.PWR_STAT.STATE < 3) && ((s.fld F.QUE_FLOW.FORCE).testBit k ||
    s.queues.any fun e => e.2.above && s.qEnabled e.1 && s.flag F.QUE_CFG.FLOW_EN e.1 && s.fld F.QUE_CFG.FLOW_SEL e.1 == k)

/-- Whether a range of items of two enabled queues overlaps (R268). -/
def State.qOverlap (s : State) (q r : Nat) : Bool :=
  let a := 16 * s.fld F.QUE_CFG.BASE q
  let b := 16 * s.fld F.QUE_CFG.BASE r
  decide (a < b + s.qDepth r) && decide (b < a + s.qDepth q)

/-- Whether an enable of a queue is allowed (R268, R273). -/
def State.qLegal (s : State) (q : Nat) : Bool :=
  let d := s.fld F.QUE_CFG.DEPTH q
  let b := s.fld F.QUE_CFG.BASE q
  decide (4 ≤ d) && decide (d ≤ 12) && b % (2 ^ d / 16) == 0 && decide (16 * b + 2 ^ d ≤ 131072) &&
    !((List.range 512).any fun r => r != q && s.qEnabled r && s.qOverlap q r) &&
    decide (0 < s.fld F.QUE_WM.HIGH q) && decide (s.fld F.QUE_WM.LOW q < s.fld F.QUE_WM.HIGH q)

/-- An enable of a queue (R268). An enabled queue stays as it is. -/
def State.queueOn (s : State) (q : Nat) : State :=
  if s.qEnabled q then s
  else if s.qLegal q then (s.setQueue q {}).setFlag F.QUE_CFG.EN true q
  else (s.raise F.QUE_GSTAT.CFG_REFUSED).setFld F.QUE_GSTAT.LAST_Q q

/-- A disable of a queue: it is emptied and ABOVE clears (R499). -/
def State.queueOff (s : State) (q : Nat) : State :=
  let above := (s.queue q).above
  let s := (s.setQueue q {}).setFlag F.QUE_CFG.EN false q
  if above then s.queueEvent q else s

/-- Whether POOL's settings allow a start (R261). -/
def State.poolLegal (s : State) : Bool :=
  let ok (c : Nat) : Bool :=
    let b := s.fld F.POOL_CLASS.BASE c
    !s.flag F.POOL_CLASS.EN c ||
      (b % classTiles c == 0 && decide (256 ≤ b) && decide (b + s.fld F.POOL_COUNT.COUNT c * classTiles c ≤ s.tileCount) &&
        (List.range 8).all fun d => d == c || !s.flag F.POOL_CLASS.EN d ||
          s.fld F.POOL_COUNT.COUNT c == 0 || s.fld F.POOL_COUNT.COUNT d == 0 ||
          decide (b + s.fld F.POOL_COUNT.COUNT c * classTiles c ≤ s.fld F.POOL_CLASS.BASE d) ||
          decide (s.fld F.POOL_CLASS.BASE d + s.fld F.POOL_COUNT.COUNT d * classTiles d ≤ b))
  (List.range 8).all ok

/-- A write of 1 to RUN of POOL (R261): a legal start frees every buffer and fills the free lists; a running POOL stays. -/
def State.poolOn (s : State) : State :=
  if s.flag F.POOL_CTL.RUN then s
  else if !s.poolLegal then s.raise F.POOL_STAT.CFG_REFUSED
  else
    let s := { s with bufs := [], free := [] }
    let s := s.each (List.range 8) fun s c =>
      if s.flag F.POOL_CLASS.EN c then s.setFree c (List.range (s.fld F.POOL_COUNT.COUNT c)) else s
    s.setFlag F.POOL_CTL.RUN true

/-- A write of 0 to RUN of POOL (R261): ignored with IN_USE while any buffer is allocated. -/
def State.poolOff (s : State) : State :=
  if s.bufs.any fun e => e.2.owner != Owner.none then s.raise F.POOL_STAT.IN_USE else s.setFlag F.POOL_CTL.RUN false

end Sys2Proof.Machine
end

