-- ==== Sys2Proof/Machine/Flags.lean ====
section
/-!
DEFINITION. The flags of a stream core (R280): what a comparison and TAGEQ write, the word MFS reads and MTS writes, and the
conditions of BC (R291).
-/
namespace Sys2Proof.Machine

/-- Whether CPLL, EPLL, MPLL, APLL and MLINK run (R15): they are stopped in DOZE, NAP and OFF, and what they clock does nothing
there. -/
def State.clocked (s : State) : Bool := decide (s.fld F.PWR_STAT.STATE ≤ 1)

/-- An event of what those clocks drive: in DOZE, NAP and OFF it does not come (R15, R434).
DEDUCED: log entry 61. -/
def whileClocked (s : State) (r : Res) : Res := if s.clocked then r else .next s

/-- Z, N, C, V and FM after a comparison of `a` with `b`: the flags of `a − b` (R280), FM from the marks read (R281). -/
def Core.compare (c : Core) (a b : W64) (mark : Bool) : Core :=
  let d := a - b
  { c with
    fz := d == 0
    fn := d.getLsbD 63
    fc := b.ule a
    fv := decide (a.toInt - b.toInt ≠ d.toInt)
    fm := mark }

/-- Z from a truth value, N, C and V cleared (R295), FM from the marks read. -/
def Core.setEq (c : Core) (z mark : Bool) : Core := { c with fz := z, fn := false, fc := false, fv := false, fm := mark }

/-- The flags word (R280). -/
def Core.flagsWord (c : Core) : W64 :=
  BitVec.ofNat 64 (c.fz.toNat + 2 * c.fn.toNat + 4 * c.fc.toNat + 8 * c.fv.toNat + 16 * c.fq.toNat + 32 * c.fh.toNat +
    128 * c.fm.toNat)

/-- MTS to flags (R307): Z, N, C, V and Q from bits 0 to 4, FM from the mark of the source, H kept. -/
def Core.putFlags (c : Core) (v : W64) (mark : Bool) : Core :=
  { c with fz := v.getLsbD 0, fn := v.getLsbD 1, fc := v.getLsbD 2, fv := v.getLsbD 3, fq := v.getLsbD 4, fm := mark }

/-- The condition codes of R291; codes 12 to 31 have no meaning. -/
def Core.cond (c : Core) (code : Nat) : Option Bool :=
  match code with
  | 0 => some c.fz
  | 1 => some !c.fz
  | 2 => some (c.fn != c.fv)
  | 3 => some (c.fn == c.fv)
  | 4 => some !c.fc
  | 5 => some c.fc
  | 6 => some (!c.fz && c.fn == c.fv)
  | 7 => some (c.fz || c.fn != c.fv)
  | 8 => some (c.fc && !c.fz)
  | 9 => some (!c.fc || c.fz)
  | 10 => some c.fq
  | 11 => some !c.fq
  | _ => none

/-- The txs word (R305). -/
def Core.txsWord (c : Core) : W64 :=
  BitVec.ofNat 64 (c.staged.length % 128 + 256 * (c.depth % 64) + 2 ^ 14 * (decide (0 < c.depth)).toNat +
    2 ^ 15 * c.aborted.toNat + 2 ^ 16 * (c.cause % 8))

end Sys2Proof.Machine
end

