-- ==== Sys2Proof/Machine/Cores.lean ====
section
/-!
DEFINITION. A stream core running one instruction: its registers with their poison marks (R279, R281), exceptions (R308,
R309), the end of an instruction with the loop stack (R292), and the pending events (R300). Every instruction's meaning is
written over `laruf`, which takes what the instruction itself does.
-/
namespace Sys2Proof.Machine

/-! ## Registers -/

/-- A general register as an operand; g0 reads zero and is never marked (R279). -/
def Core.rg (c : Core) (r : Rf) : GReg := if r = 0 then {} else c.g.get (fun _ => {}) r.toNat
/-- The value of a general register. -/
def Core.gv (c : Core) (r : Rf) : W64 := (c.rg r).val
/-- The poison mark of a general register. -/
def Core.gm (c : Core) (r : Rf) : Bool := (c.rg r).mark
/-- A general register written with its mark; g0 ignores writes (R279). -/
def Core.setG (c : Core) (r : Rf) (v : W64) (mark : Bool) : Core :=
  if r = 0 then c else { c with g := c.g.set (fun _ => {}) r.toNat { val := v, mark := mark } }
/-- The value of a wide register. -/
def Core.wv (c : Core) (r : Rf) : W128 := (c.w.get (fun _ => {}) r.toNat).val
/-- The poison mark of a wide register. -/
def Core.wm (c : Core) (r : Rf) : Bool := (c.w.get (fun _ => {}) r.toNat).mark
/-- A wide register written with its mark. -/
def Core.setW (c : Core) (r : Rf) (v : W128) (mark : Bool) : Core :=
  { c with w := c.w.set (fun _ => {}) r.toNat { val := v, mark := mark } }

/-! ## Events (R300) -/

/-- The level bits QN0 to QN3 and STOPREQ of a core's EVP. -/
def State.evLevels (s : State) (c : Core) : W64 :=
  let qn (n : Nat) : Nat :=
    let w := c.qwatch.get (fun _ => 0) n
    if w.getLsbD 15 && s.qEnabled (w.toNat % 512) && s.qCount (w.toNat % 512) != 0 then 2 ^ (4 + n) else 0
  BitVec.ofNat 64 (qn 0 + qn 1 + qn 2 + qn 3 + 2 ^ 10 * c.stopReq.toNat)

/-- EVP of a core: the edge bits as they stand and the level bits as their conditions are. -/
def State.evp (s : State) (c : Core) : W64 := c.evEdge ||| s.evLevels c

/-! ## Engine queues and CIP_LOCK -/

/-- The accepted commands of an engine target that have not started, oldest first. -/
def State.cmds (s : State) (t : Nat) : List Cmd := s.accepted.get (fun _ => []) t
/-- The state with an engine's accepted commands replaced. -/
def State.setCmds (s : State) (t : Nat) (l : List Cmd) : State := { s with accepted := s.accepted.set (fun _ => []) t l }

/-- Whether a message holds the lock. -/
def State.lockHeld (s : State) : Bool := s.flag F.CIP_LOCK.HELD
/-- The core that holds the lock. -/
def State.holder (s : State) : Nat := s.fld F.CIP_LOCK.HOLDER

/-- The message ends and the lock is free; MESSAGES counts it (R350). -/
def State.endMessage (s : State) : State := { (s.setFlag F.CIP_LOCK.HELD false).bump F.CIP_CNT.MESSAGES with lockEnd := none }

/-- Whether CIP has completed the commands of a core accepted before number `n`: none is queued and no completion item of one is
held. -/
def State.cipDone (s : State) (core n : Nat) : Bool :=
  let e (c : Cmd) : Bool := c.core == core && c.target == 1 && decide (c.seq < n)
  !((s.cmds 1).any e) && !(s.held.any fun x => e x.cmd)

/-- A holder of the lock that has entered stopped, halted or faulted has its lock freed once the commands it had accepted by then have
completed, though it may run again meanwhile (R350). -/
def State.lockCheck (s : State) : State :=
  let gone := s.lockHeld && s.lockEnd.isNone && (s.core s.holder).run != .running
  let s := if gone then { s with lockEnd := some s.nextSeq } else s
  match s.lockEnd with
  | some n => if s.lockHeld && s.cipDone s.holder n then s.endMessage else s
  | none => s

/-! ## Exceptions -/

def Exc.ILLEGAL : Nat := 0x01
def Exc.ALIGN : Nat := 0x02
def Exc.LOCAL_RANGE : Nat := 0x03
def Exc.ACCESS : Nat := 0x04
def Exc.POISON : Nat := 0x05
def Exc.BUSERR : Nat := 0x06
def Exc.LOOP_DEPTH : Nat := 0x07
def Exc.TRAP : Nat := 0x08

/-- A transaction in progress ended by an exception or a stop (R305), with cause FAULT or STOP. -/
def Core.endTx (c : Core) (cause : Nat) : Core :=
  if c.depth = 0 then c else { c with staged := [], depth := 0, aborted := true, cause := cause, overlap := false }

/-- Steps 5 and 6 of R309: the handler, or faulted. -/
def Core.vector (c : Core) : Core :=
  match c.handler with
  | some h => if c.fh then { c with run := .faulted } else { c with fh := true, pc := h }
  | none => { c with run := .faulted }

/-- An exception of core `n` at its pc (R309). `faddr` none: the exception has no address or operand, and FADDR takes a free
value (DESIGN CHOICE, log entry 20). -/
def State.exception (s : State) (n : Nat) (code : Nat) (faddr : Option W64) (fstat : W16) : State :=
  let c := (s.core n).endTx 3
  let a := match faddr with
    | some a => a
    | none => Config.freeW64 s.freeCtr
  let s := if faddr.isNone then s.nextFree else s
  let s := s.setCore n { c with loops := [], stall := .none, fcode := code, fpc := c.pc, faddr := a, fstat := fstat }
  let s := s.report 0x0501 (n + code * 256 + c.pc % 65536 * 65536)
  (s.setCore n (s.core n).vector).lockCheck

/-! ## Stopping -/

/-- A core that enters stopped, at a HALT or by request (R312): a transaction ends with cause STOP (R305), a WAIT or ISSUE in
progress is abandoned. -/
def State.coreStopped (s : State) (n : Nat) : State :=
  let c := (s.core n).endTx 5
  (s.setCore n { c with run := .stopped, graceOver := false, stall := .none }).lockCheck

/-- An instruction boundary of a core whose grace ran out within the instruction (R312). -/
def State.coreBoundary (s : State) (n : Nat) : State :=
  if (s.core n).run = .running ∧ (s.core n).graceOver then s.coreStopped n else s

/-! ## The end of an instruction -/

/-- The loop stack, innermost first, at the end of an instruction without a taken branch (R292): the next pc and the stack.
DEDUCED: log entry 32. -/
def loopEnd : List LoopEntry → Nat → Nat × List LoopEntry
  | [], next => (next, [])
  | e :: es, next =>
    if next = e.stop then
      if e.count - 1 ≠ 0 then (e.start, { e with count := e.count - 1 } :: es) else loopEnd es next
    else (next, e :: es)

/-- The loop stack after a taken branch (R292): entries whose body the destination leaves are popped.
DEDUCED: log entry 32. -/
def loopLeave : List LoopEntry → Nat → List LoopEntry
  | [], _ => []
  | e :: es, d => if e.start ≤ d ∧ d < e.stop then e :: es else loopLeave es d

/-- An instruction completed without a taken branch: pc advances, or a loop iterates (R292). -/
def Core.advance (c : Core) : Core :=
  let (p, l) := loopEnd c.loops (c.pc + 4)
  { c with pc := p, loops := l }

/-- A taken branch to a byte address (R292). -/
def Core.jump (c : Core) (d : Nat) : Core := { c with pc := d, loops := loopLeave c.loops d }

/-- What an instruction itself does. -/
inductive Effect where
  /-- it completes without a taken branch -/
  | done (s : State)
  /-- it completes with a taken branch -/
  | goto (s : State) (d : Nat)
  /-- it raises an exception: code, FADDR, FSTAT -/
  | raise (code : Nat) (faddr : Option W64) (fstat : W16)
  /-- it leaves the core stalled or halted at this instruction -/
  | stay (s : State)

/-- The instruction that a core meets at its pc: the little-endian word of its instruction memory there (R277, R279, R283); none for
a word that R284 and the tables after it make ILLEGAL. -/
def State.larufAt (s : State) (n : CoreId) : Option Instr :=
  let c := s.core n
  larufDecode n (BitVec.ofNat 32 (leNat ((List.range 4).map fun k => c.im.get (fun _ => 0) (c.pc + k))))

/-- One instruction on core `n`. Only a running core that is not stalled executes (R277), while CPLL runs (R15); a pc at or beyond the
code length raises LOCAL_RANGE, and a word at the pc with an undefined opcode or function ILLEGAL (R284, R308). An instruction that
raises an exception has no effect of its own (R308).
DESIGN CHOICE: log entry 30. -/
def laruf (n : CoreId) (s : State) (f : Core → Effect) : Res :=
  let c := s.core n
  if !s.clocked ∨ c.run ≠ .running ∨ c.stall ≠ .none then .next s
  else if c.codeLen ≤ c.pc then
    .next (s.exception n Exc.LOCAL_RANGE (some (BitVec.ofNat 64 c.pc)) 0)
  else if (s.larufAt n).isNone then .next (s.exception n Exc.ILLEGAL none 0)
  else match f c with
    | .done s => .next (s.setCore n (s.core n).advance)
    | .goto s d => .next (s.setCore n ((s.core n).jump d))
    | .raise code a st => .next (s.exception n code a st)
    | .stay s => .next s

/-- The effect of an ILLEGAL instruction (R308). -/
def illegal : Effect := .raise Exc.ILLEGAL none 0
/-- The effect of a use of a marked value that R282 lists. -/
def poisoned : Effect := .raise Exc.POISON none 0

/-- An instruction that only changes its own core. -/
def coreDone (n : CoreId) (s : State) (c : Core) : Effect := .done (s.setCore n c)

end Sys2Proof.Machine
end

