-- ==== Sys2Proof/Machine/Alu.lean ====
section
/-!
DEFINITION. Arithmetic and logic of the stream cores (R284, R285, R293): the meanings of the register and immediate formats.
Every result carries the mark of the registers read (R281); fields an instruction does not use must be zero (R283).
-/
namespace Sys2Proof.Machine

/-- A two-operand instruction: rd = f ra rb, marked when either operand is. -/
def alu2 (n : CoreId) (rd ra rb : Rf) (f : W64 → W64 → W64) (s : State) : Res :=
  laruf n s fun c => coreDone n s (c.setG rd (f (c.gv ra) (c.gv rb)) (c.gm ra || c.gm rb))

/-- A one-operand instruction: rd = f ra, with rb zero. -/
def alu1 (n : CoreId) (rd ra rb : Rf) (f : W64 → W64) (s : State) : Res :=
  laruf n s fun c => if rb ≠ 0 then illegal else coreDone n s (c.setG rd (f (c.gv ra)) (c.gm ra))

/-- An immediate instruction: rd = f ra, with the sub field zero. -/
def aluImm (n : CoreId) (rd ra : Rf) (sub : BitVec 2) (f : W64 → W64) (s : State) : Res :=
  laruf n s fun c => if sub ≠ 0 then illegal else coreDone n s (c.setG rd (f (c.gv ra)) (c.gm ra))

/-- A shift or rotate by imm14[5:0]; imm14[13:6] must be 0 (R284). -/
def shiftImm (n : CoreId) (rd ra : Rf) (imm : BitVec 14) (f : W64 → Nat → W64) (s : State) : Res :=
  laruf n s fun c =>
    if imm.toNat / 64 ≠ 0 then illegal else coreDone n s (c.setG rd (f (c.gv ra) (imm.toNat % 64)) (c.gm ra))

/-- 1 for a condition that holds, else 0. -/
def bit64 (b : Bool) : W64 := if b then 1 else 0

/-- The shift amount of a register (R285): its low 6 bits. -/
def amount (v : W64) : Nat := v.toNat % 64

/-- Leading zeros among the low `k` bits. -/
def clzAux (v : W64) : Nat → Nat
  | 0 => 0
  | k + 1 => if v.getLsbD k then 0 else clzAux v k + 1

/-- Ones among the low `k` bits. -/
def popAux (v : W64) : Nat → Nat
  | 0 => 0
  | k + 1 => (v.getLsbD k).toNat + popAux v k

/-- The bytes of a 64-bit value reversed. -/
def bswap64 (v : W64) : W64 := BitVec.ofNat 64 (leNat (leBytes 8 v.toNat).reverse)

/-- ADD (R285): rd = ra + rb modulo 2^64. -/
def execAdd (n : CoreId) (rd ra rb : Rf) (s : State) : Res := alu2 n rd ra rb (fun a b => a + b) s

/-- SUB (R285): rd = ra − rb. -/
def execSub (n : CoreId) (rd ra rb : Rf) (s : State) : Res := alu2 n rd ra rb (fun a b => a - b) s

/-- AND (R285): rd = ra AND rb. -/
def execAnd (n : CoreId) (rd ra rb : Rf) (s : State) : Res := alu2 n rd ra rb (fun a b => a &&& b) s

/-- OR (R285): rd = ra OR rb. -/
def execOr (n : CoreId) (rd ra rb : Rf) (s : State) : Res := alu2 n rd ra rb (fun a b => a ||| b) s

/-- XOR (R285): rd = ra XOR rb. -/
def execXor (n : CoreId) (rd ra rb : Rf) (s : State) : Res := alu2 n rd ra rb (fun a b => a ^^^ b) s

/-- SHL (R285): rd = ra << rb[5:0]. -/
def execShl (n : CoreId) (rd ra rb : Rf) (s : State) : Res := alu2 n rd ra rb (fun a b => a <<< amount b) s

/-- SHR (R285): rd = logical shift right of ra by rb[5:0]. -/
def execShr (n : CoreId) (rd ra rb : Rf) (s : State) : Res := alu2 n rd ra rb (fun a b => a >>> amount b) s

/-- SAR (R285): rd = arithmetic shift right of ra by rb[5:0]. -/
def execSar (n : CoreId) (rd ra rb : Rf) (s : State) : Res := alu2 n rd ra rb (fun a b => a.sshiftRight (amount b)) s

/-- ROR (R285): rd = ra rotated right by rb[5:0]. -/
def execRor (n : CoreId) (rd ra rb : Rf) (s : State) : Res := alu2 n rd ra rb (fun a b => a.rotateRight (amount b)) s

/-- MUL (R285): rd = low 64 bits of ra × rb. -/
def execMul (n : CoreId) (rd ra rb : Rf) (s : State) : Res := alu2 n rd ra rb (fun a b => a * b) s

/-- MULHU (R285): rd = high 64 bits of the unsigned product. -/
def execMulhu (n : CoreId) (rd ra rb : Rf) (s : State) : Res := alu2 n rd ra rb (fun a b => BitVec.ofNat 64 (a.toNat * b.toNat / 2 ^ 64)) s

/-- SLT (R285): rd = 1 if ra < rb signed, else 0. -/
def execSlt (n : CoreId) (rd ra rb : Rf) (s : State) : Res := alu2 n rd ra rb (fun a b => bit64 (a.slt b)) s

/-- SLTU (R285): rd = 1 if ra < rb unsigned, else 0. -/
def execSltu (n : CoreId) (rd ra rb : Rf) (s : State) : Res := alu2 n rd ra rb (fun a b => bit64 (a.ult b)) s

/-- MIN (R285): rd = the lesser, signed. -/
def execMin (n : CoreId) (rd ra rb : Rf) (s : State) : Res := alu2 n rd ra rb (fun a b => if a.slt b then a else b) s

/-- MAX (R285): rd = the greater, signed. -/
def execMax (n : CoreId) (rd ra rb : Rf) (s : State) : Res := alu2 n rd ra rb (fun a b => if a.slt b then b else a) s

/-- MINU (R285): rd = the lesser, unsigned. -/
def execMinu (n : CoreId) (rd ra rb : Rf) (s : State) : Res := alu2 n rd ra rb (fun a b => if a.ult b then a else b) s

/-- MAXU (R285): rd = the greater, unsigned. -/
def execMaxu (n : CoreId) (rd ra rb : Rf) (s : State) : Res := alu2 n rd ra rb (fun a b => if a.ult b then b else a) s

/-- CMP (R285): the flags of ra − rb; rd must be 0. -/
def execCmp (n : CoreId) (rd ra rb : Rf) (s : State) : Res :=
  laruf n s fun c => if rd ≠ 0 then illegal else coreDone n s (c.compare (c.gv ra) (c.gv rb) (c.gm ra || c.gm rb))

/-- CLZ (R285): rd = leading zeros of ra; rb must be 0. -/
def execClz (n : CoreId) (rd ra rb : Rf) (s : State) : Res := alu1 n rd ra rb (fun a => BitVec.ofNat 64 (clzAux a 64)) s

/-- POPC (R285): rd = ones in ra; rb must be 0. -/
def execPopc (n : CoreId) (rd ra rb : Rf) (s : State) : Res := alu1 n rd ra rb (fun a => BitVec.ofNat 64 (popAux a 64)) s

/-- BSWAP (R285): rd = the bytes of ra reversed; rb must be 0. -/
def execBswap (n : CoreId) (rd ra rb : Rf) (s : State) : Res := alu1 n rd ra rb (bswap64) s

/-- SEL (R285): rd = ra if Z is 1, else rb; marked also when FM is set (R281). -/
def execSel (n : CoreId) (rd ra rb : Rf) (s : State) : Res :=
  laruf n s fun c =>
    coreDone n s (c.setG rd (if c.fz then c.gv ra else c.gv rb) (c.gm ra || c.gm rb || c.fm))

/-- ADDI (R284): rd = ra + sext(imm14). -/
def execAddi (n : CoreId) (rd ra : Rf) (sub : BitVec 2) (imm : BitVec 14) (s : State) : Res :=
  aluImm n rd ra sub (fun a => a + imm.signExtend 64) s

/-- ANDI (R284): rd = ra AND zext(imm14). -/
def execAndi (n : CoreId) (rd ra : Rf) (sub : BitVec 2) (imm : BitVec 14) (s : State) : Res :=
  aluImm n rd ra sub (fun a => a &&& imm.zeroExtend 64) s

/-- ORI (R284): rd = ra OR zext(imm14). -/
def execOri (n : CoreId) (rd ra : Rf) (sub : BitVec 2) (imm : BitVec 14) (s : State) : Res :=
  aluImm n rd ra sub (fun a => a ||| imm.zeroExtend 64) s

/-- XORI (R284): rd = ra XOR zext(imm14). -/
def execXori (n : CoreId) (rd ra : Rf) (sub : BitVec 2) (imm : BitVec 14) (s : State) : Res :=
  aluImm n rd ra sub (fun a => a ^^^ imm.zeroExtend 64) s

/-- SHLI (R284): rd = ra << imm14[5:0]. -/
def execShli (n : CoreId) (rd ra : Rf) (imm : BitVec 14) (s : State) : Res :=
  shiftImm n rd ra imm (fun a k => a <<< k) s

/-- SHRI (R284): rd = logical shift right of ra. -/
def execShri (n : CoreId) (rd ra : Rf) (imm : BitVec 14) (s : State) : Res :=
  shiftImm n rd ra imm (fun a k => a >>> k) s

/-- SARI (R284): rd = arithmetic shift right of ra. -/
def execSari (n : CoreId) (rd ra : Rf) (imm : BitVec 14) (s : State) : Res :=
  shiftImm n rd ra imm (fun a k => a.sshiftRight k) s

/-- RORI (R284): rd = ra rotated right. -/
def execRori (n : CoreId) (rd ra : Rf) (imm : BitVec 14) (s : State) : Res :=
  shiftImm n rd ra imm (fun a k => a.rotateRight k) s

/-- MOVI (R284): rd = sext(imm14); ra is unused. -/
def execMovi (n : CoreId) (rd ra : Rf) (imm : BitVec 14) (s : State) : Res :=
  laruf n s fun c => if ra ≠ 0 then illegal else coreDone n s (c.setG rd (imm.signExtend 64) false)

/-- MOVS (R284): rd = (ra << 14) OR imm14. -/
def execMovs (n : CoreId) (rd ra : Rf) (imm : BitVec 14) (s : State) : Res :=
  laruf n s fun c => coreDone n s (c.setG rd ((c.gv ra <<< 14) ||| imm.zeroExtend 64) (c.gm ra))

/-- CMPI (R284): the flags of ra − sext(imm14); rd must be 0. -/
def execCmpi (n : CoreId) (rd ra : Rf) (sub : BitVec 2) (imm : BitVec 14) (s : State) : Res :=
  laruf n s fun c =>
    if rd ≠ 0 ∨ sub ≠ 0 then illegal else coreDone n s (c.compare (c.gv ra) (imm.signExtend 64) (c.gm ra))

/-- CRC32C (R293): ra[31:0] advanced over 1, 2, 4 or 8 bytes of rb, least significant byte first. -/
def execCrc32c (n : CoreId) (rd ra rb : Rf) (width : BitVec 2) (s : State) : Res :=
  laruf n s fun c =>
    let v := crc32cAdv ((c.gv ra).toNat % 2 ^ 32) (leBytes (2 ^ width.toNat) (c.gv rb).toNat)
    coreDone n s (c.setG rd (BitVec.ofNat 64 v) (c.gm ra || c.gm rb))

end Sys2Proof.Machine
end

