-- ==== Sys2Proof/Machine/Aes.lean ====
section
/-!
DEFINITION. AES as FIPS 197 has it, which R343 names, over 16 bytes in storage order, and the key unwrapping of RFC 3394 that
R359 names. The tables come from those public standards (PRESUMED, log entry 25).
-/
namespace Sys2Proof.Machine

/-- The substitution table, entry x in byte x. -/
def Aes.sboxTable : Nat :=
    0x75B227EBE28012079A059618C323C7041531D871F1E5A534CCF73F362693FDB7C072A49CAFA2D4ADF04759FA7DC982CA76ABD7FE2B670130C56F6BF27B777C63 +
    0xD2F3FF1021DAB6BCF5389D928F40A351A89F3C507F02F94585334D43FBAAEFD0CF584C4A39BECB6A5BB1FC20ED00D153842FE329B3D63B52A05A6E1B1A2C8309 * 2 ^ 512 +
    0x08AE7A65EAF4566CA94ED58D6D37C8E779E4959162ACD3C25C2406490A3A32E0DB0B5EDE14B8EE4688902A22DC4F816073195D643D7EA7C41744975FEC130CCD * 2 ^ 1024 +
    0x16BB54B00F2D99416842E6BF0D89A18CDF2855CEE9871E9B948ED9691198F8E19E1DC186B95735610EF6034866B53E708A8BBD4B1F74DDE8C6B4A61C2E2578BA * 2 ^ 1536

/-- The inverse substitution table, entry x in byte x. -/
def Aes.invTable : Nat :=
    0x25D18B6D49A25B76B224D92866A12E084EC3FA420B954CEE3D23C2A632947B54CBE9DEC444438E3487FF2F9B8239E37CFBD7F3819EA340BF38A53630D56A0952 +
    0x6B8A130103BDAFC1020F3FCA8F1E2CD00645B3B80558E4F70AD3BC8C00ABD890849D8DA75746155EDAB9EDFD5048706C92B6655DCC5CA4D41698688664F6F872 * 2 ^ 512 +
    0xF45ACD78FEC0DB9A2079D2C64B3E56FC1BBE18AA0E62B76F89C5291D711AF1476EDF751CE837F9E28535ADE72274AC9673E6B4F0CECFF297EADC674F4111913A * 2 ^ 1024 +
    0x7D0C2155631469E126D677BA7E042B17619953833CBBEBC8B0F52AAE4D3BE0A0EF9CC9939F7AE52D0D4AB519A97F51605FEC8027591012B131C7078833A8DD1F * 2 ^ 1536

/-- Substitution of a byte. -/
def Aes.sub (b : Byte) : Byte := BitVec.ofNat 8 (sboxTable >>> (8 * b.toNat))
/-- Inverse substitution of a byte. -/
def Aes.invSub (b : Byte) : Byte := BitVec.ofNat 8 (invTable >>> (8 * b.toNat))

/-- Multiplication by x modulo x^8 + x^4 + x^3 + x + 1. -/
def Aes.times2 (b : Byte) : Byte := if b.getLsbD 7 then (b <<< 1) ^^^ 0x1B else b <<< 1

/-- Multiplication by a small constant, over its low `n` bits. -/
def Aes.times : Nat → Nat → Byte → Byte
  | 0, _, _ => 0
  | n + 1, k, b => (if k % 2 = 1 then b else 0) ^^^ times n (k / 2) (times2 b)

/-- One word of the schedule from the one before: rotated and substituted with the round constant, substituted, or as it is. -/
def Aes.temp (nk i : Nat) (rcon : Byte) (w : List Byte) : List Byte :=
  if i % nk = 0 then
    match (w.drop 1 ++ w.take 1).map sub with
    | x :: xs => (x ^^^ rcon) :: xs
    | [] => []
  else if 6 < nk ∧ i % nk = 4 then w.map sub
  else w

/-- The key schedule, words newest first; `n` words remain to be made. -/
def Aes.expandAux (nk : Nat) : Nat → Nat → Byte → List (List Byte) → List (List Byte)
  | 0, _, _, ws => ws
  | n + 1, i, rcon, ws =>
    let t := temp nk i rcon (ws.headD [])
    let w := xorBytes (ws.getD (nk - 1) []) t
    expandAux nk n (i + 1) (if i % nk = 0 then times2 rcon else rcon) (w :: ws)

/-- A list cut into pieces of `k` elements, `n` of them. -/
def pieces {α : Type} (k : Nat) : Nat → List α → List (List α)
  | 0, _ => []
  | n + 1, l => l.take k :: pieces k n (l.drop k)

/-- The round keys of a key of 16, 24 or 32 bytes. -/
def Aes.roundKeys (key : List Byte) : List (List Byte) :=
  let nk := key.length / 4
  let ws := (expandAux nk (3 * nk + 28) nk 1 (pieces 4 nk key).reverse).reverse
  pieces 16 (nk + 7) ws.flatten

/-- Rows shifted: byte r of column c comes from column c + r. -/
def Aes.shiftRows (b : List Byte) : List Byte := (List.range 16).map fun i => b.getD ((i + 4 * (i % 4)) % 16) 0
/-- Rows shifted back. -/
def Aes.invShiftRows (b : List Byte) : List Byte := (List.range 16).map fun i => b.getD ((i + 12 * (i % 4)) % 16) 0

/-- Columns multiplied by a circulant of four constants. -/
def Aes.mixWith (k : List Nat) (b : List Byte) : List Byte :=
  (List.range 16).map fun i =>
    let c := i / 4 * 4
    (List.range 4).foldl (fun x j => x ^^^ times 4 (k.getD ((j + 4 - i % 4) % 4) 0) (b.getD (c + j) 0)) 0

/-- One block enciphered. -/
def Aes.encrypt (key block : List Byte) : List Byte :=
  match roundKeys key with
  | [] => block
  | k :: ks =>
    let mid := ks.dropLast.foldl (fun b k => xorBytes (mixWith [2, 3, 1, 1] (shiftRows (b.map sub))) k) (xorBytes block k)
    xorBytes (shiftRows (mid.map sub)) (ks.getLastD [])

/-- One block deciphered. -/
def Aes.decrypt (key block : List Byte) : List Byte :=
  match (roundKeys key).reverse with
  | [] => block
  | k :: ks =>
    let mid := ks.dropLast.foldl (fun b k => mixWith [14, 11, 13, 9] (xorBytes ((invShiftRows b).map invSub) k)) (xorBytes block k)
    xorBytes ((invShiftRows mid).map invSub) (ks.getLastD [])

/-- One step of the unwrapping: t counts down from 6n. -/
def Aes.unwrapStep (key : List Byte) (n : Nat) (a : List Byte) (r : List (List Byte)) (t : Nat) :
    List Byte × List (List Byte) :=
  let i := (t - 1) % n
  let b := decrypt key (xorBytes a (leBytes 8 t).reverse ++ r.getD i [])
  (b.take 8, r.set i (b.drop 8))

/-- The unwrapping of RFC 3394: the plaintext, none when the integrity check fails. -/
def Aes.unwrap (key blob : List Byte) : Option (List Byte) :=
  let n := blob.length / 8 - 1
  let (a, r) := (List.range (6 * n)).foldl (fun p k => unwrapStep key n p.1 p.2 (6 * n - k))
    (blob.take 8, pieces 8 n (blob.drop 8))
  if a = List.replicate 8 0xA6 then some r.flatten else none

end Sys2Proof.Machine
end

