-- ==== Sys2Proof/Machine/Operands.lean ====
section
/-!
DEFINITION. Operand forms: the memory format of Laruf (R286 to R288), local data memory with its marks (R281), and the fields
of an engine descriptor with the shapes of R316 and R318.
-/
namespace Sys2Proof.Machine

/-! ## The memory format -/

/-- Bytes of an access of a size field (R286). -/
def sizeBytes (size : BitVec 3) : Nat := if size.toNat ≤ 4 then 2 ^ size.toNat else 2 ^ (size.toNat - 5)
/-- Whether a size field names a sign-extending load (R286). -/
def sizeSigned (size : BitVec 3) : Bool := decide (5 ≤ size.toNat)
/-- Whether a size field names a wide register (R286). -/
def sizeWide (size : BitVec 3) : Bool := size.toNat == 4
/-- The displacement: off13 times the access width (R286). -/
def displacement (size : BitVec 3) (off : BitVec 13) : Int := off.toInt * sizeBytes size

/-- Bytes loaded into a general register: zero-extended, or sign-extended (R286). -/
def extend (signed : Bool) (l : List Byte) : W64 :=
  let v := leNat l
  let w := 8 * l.length
  if signed && decide (2 ^ (w - 1) ≤ v) then BitVec.ofInt 64 ((v : Int) - 2 ^ w) else BitVec.ofNat 64 v

/-- A loaded value written to its destination with its mark. -/
def Core.load (c : Core) (rt : Rf) (signed wide : Bool) (l : List Byte) (mark : Bool) : Core :=
  if wide then c.setW rt (BitVec.ofNat 128 (leNat l)) mark else c.setG rt (extend signed l) mark

/-- The bytes a store writes, and whether its register is marked. -/
def Core.stored (c : Core) (rt : Rf) (size : BitVec 3) : List Byte × Bool :=
  if sizeWide size then (leBytes 16 (c.wv rt).toNat, c.wm rt)
  else (leBytes (sizeBytes size) (c.gv rt).toNat, c.gm rt)

/-! ## Local data memory -/

/-- Bytes of LDM. -/
def Core.ldmBytes (c : Core) (a n : Nat) : List Byte := c.ldm.slice (fun _ => 0) a n

/-- The aligned 8-byte words of LDM that `n` bytes from `a` touch. -/
def ldmWords (a n : Nat) : List Nat := (List.range ((a + n + 7) / 8 - a / 8)).map (· + a / 8)

/-- Whether any word that bytes of LDM lie in is marked (R281). -/
def Core.ldmMarked (c : Core) (a n : Nat) : Bool := (ldmWords a n).any fun w => c.ldmMark.get (fun _ => false) w

/-- A store to LDM (R281): a marked value marks the words it touches, an unmarked one clears the marks of the words it covers
whole. -/
def Core.ldmStore (c : Core) (a : Nat) (l : List Byte) (mark : Bool) : Core :=
  let set (m : SMap Bool) (w : Nat) : SMap Bool :=
    if mark then m.set (fun _ => false) w true
    else if a ≤ 8 * w ∧ 8 * w + 8 ≤ a + l.length then m.set (fun _ => false) w false else m
  { c with ldm := c.ldm.store (fun _ => 0) a l, ldmMark := (ldmWords a l.length).foldl set c.ldmMark }

/-- The address checks of LDL and STL (R287): LOCAL_RANGE before ALIGN.
DEDUCED: log entry 29. -/
def ldmAddress (base : W64) (size : BitVec 3) (off : BitVec 13) : Except (Nat × W64) Nat :=
  let a : Int := base.toNat + displacement size off
  if a < 0 ∨ 65536 < a + sizeBytes size then .error (Exc.LOCAL_RANGE, BitVec.ofInt 64 a)
  else if a % sizeBytes size ≠ 0 then .error (Exc.ALIGN, BitVec.ofInt 64 a)
  else .ok a.toNat

/-! ## Descriptors (R316, R318) -/

/-- Command code. -/
def dCode (d : List Byte) : Nat := natAt d 0 1
/-- Flags. -/
def dFlags (d : List Byte) : Nat := natAt d 1 1
/-- FENCE. -/
def dFence (d : List Byte) : Bool := dFlags d % 2 == 1
/-- ARG. -/
def dArg (d : List Byte) : Nat := natAt d 2 2
/-- Tag. -/
def dTag (d : List Byte) : Nat := natAt d 4 4
/-- Bytes 8 to 15. -/
def dA (d : List Byte) : W64 := BitVec.ofNat 64 (natAt d 8 8)
/-- Bytes 16 to 23. -/
def dB (d : List Byte) : W64 := BitVec.ofNat 64 (natAt d 16 8)
/-- Bytes 24 to 27. -/
def dC (d : List Byte) : Nat := natAt d 24 4
/-- Bytes 28 to 31. -/
def dD (d : List Byte) : Nat := natAt d 28 4

/-- The value of an optional address field that means none (R318). -/
def noAddress : W64 := 0xFFFFFFFFFFFFFFFF

/-- The engine targets of R298. -/
def Tgt.cmp : Nat := 0
def Tgt.cip : Nat := 1
def Tgt.fmt : Nat := 2
def Tgt.team : Nat := 3
def Tgt.hst : Nat := 4
def Tgt.rngEast : Nat := 5
def Tgt.rngWest : Nat := 6
def Tgt.key : Nat := 7
def Tgt.til : Nat := 8

/-- What a command's descriptor may hold (R318): the ARG bits it defines, then the largest values of bytes 8 to 15, 16 to 23,
24 to 27 and 28 to 31; a field the table leaves empty has 0. None for an unknown code. -/
def cmdShape (target code : Nat) : Option (Nat × Nat × Nat × Nat × Nat) :=
  let w := 2 ^ 64 - 1
  let h := 2 ^ 32 - 1
  match target, code with
  | 0, 1 => some (0x3FF, w, w, h, h)
  | 0, 2 => some (0x3FF, w, w, h, h)
  | 0, 3 => some (0x43F, w, 0, 0, 0)
  | 0, 4 => some (0x03F, 0, 0, 0, 0)
  | 1, 1 => some (0x77F, w, w, h, 0)
  | 1, 2 => some (0x77F, w, w, h, 0)
  | 2, 1 => some (0x1FF, w, w, h, 0)
  | 2, 2 => some (0x17F, w, 0, h, 0)
  | 2, 3 => some (0x000, w, 0, h, 0)
  | 2, 4 => some (0x100, w, w, h, h)
  | 3, 1 => some (0xFFFF, w, 0, h, h)
  | 3, 2 => some (0xFFFF, w, 0, h, h)
  | 3, 3 => some (0xFFFF, 0, 0, h, h)
  | 4, 1 => some (0x00F, w, w, h, 0)
  | 4, 2 => some (0x01F, w, w, h, h)
  | 4, 3 => some (0x00F, w, w, h, 0)
  | 5, 1 => some (0xFFFF, w, 0, h, 0xFF)
  | 6, 1 => some (0xFFFF, w, 0, h, 0xFF)
  | 5, 2 => some (0x0FF, w, 0, h, 0)
  | 6, 2 => some (0x0FF, w, 0, h, 0)
  | 7, 1 => some (0x07F, w, 0, h, 0)
  | 7, 2 => some (0x07F, 0, 0, 0, 0)
  | 7, 3 => some (0x000, w, w, h, 0)
  | 8, 1 => some (0x000, w, w, h, 0)
  | 8, 2 => some (0x0FF, w, 0, h, 0)
  | 8, 3 => some (0x001, w, 0, h, h)
  | _, _ => none

/-- Whether a descriptor meets R316 and R318: known code, no flag but FENCE, tag bit 31 clear, empty fields zero (CTX_INIT's
bytes 8 to 11 among them). -/
def descOk (target : Nat) (d : List Byte) : Bool :=
  match cmdShape target (dCode d) with
  | none => false
  | some (arg, a, b, c, e) =>
    dFlags d / 2 == 0 && decide (dTag d < 2 ^ 31) && (dArg d &&& arg) == dArg d && decide ((dA d).toNat ≤ a) &&
      decide ((dB d).toNat ≤ b) && decide (dC d ≤ c) && decide (dD d ≤ e) &&
      (!(target == 0 && dCode d == 3) || natAt d 8 4 == 0)

/-- The owner under which an engine target takes buffers (R11, R263). -/
def tgtOwner (target : Nat) : Option Nat :=
  match target with
  | 0 => some Owner.cmp
  | 1 => some Owner.cip
  | 2 => some Owner.fmt
  | 3 => some Owner.team
  | 4 => some Owner.hst
  | 5 => some Owner.rngEast
  | 6 => some Owner.rngWest
  | 7 => some Owner.key
  | 8 => some Owner.til
  | _ => none

/-- The buffers a descriptor names for its engine to take (R11, R322), as the table of R318 places their addresses; one that moves
nothing (R323) names its buffers too. -/
def namedBuffers (target : Nat) (d : List Byte) : List W32 :=
  let a := taHandle (dA d)
  let b := taHandle (dB d)
  match target, dCode d with
  | 0, 1 => [a, b]
  | 0, 2 => [a, b]
  | 0, 3 => [BitVec.ofNat 32 (natAt d 12 4)]
  | 1, 1 => [a, b]
  | 1, 2 => [a, b]
  | 2, 1 => if (dArg d).testBit 8 then [a] else [a, b]
  | 2, 2 => [a]
  | 2, 3 => [a]
  | 2, 4 => if dB d = noAddress then [a] else [a, b]
  | 3, 1 => [a]
  | 3, 2 => [a]
  | 4, 1 => [b]
  | 4, 2 => [b]
  | 5, 1 => [a]
  | 6, 1 => [a]
  | 5, 2 => [a]
  | 6, 2 => [a]
  | 7, 1 => [a]
  | 7, 3 => [a, b]
  | 8, 1 => [a, b]
  | 8, 2 => [a]
  | 8, 3 => [a]
  | _, _ => []

end Sys2Proof.Machine
end

