-- ==== Sys2Proof/Machine/Engines.lean ====
section
/-!
DEFINITION. What every engine shares: its command queue and whether it has room (R234, R299, R348), acceptance with the taking
of named buffers (R11, R322), the completion item and its putting (R322, R327), and the order FENCE asks for (R317).
-/
namespace Sys2Proof.Machine

/-! ## Completions -/

/-- The completion item of R327: target, code, flag bit 0, status, detail, result and tag with its bit 31 clear. -/
def completionItem (target code : Nat) (mark : Bool) (status : W16) (detail result tag : Nat) : W128 :=
  BitVec.ofNat 128 (leNat ([1] ++ leBytes 1 target ++ leBytes 1 code ++ leBytes 1 mark.toNat ++ leBytes 2 status.toNat ++
    leBytes 2 detail ++ leBytes 4 result ++ leBytes 4 (tag % 2 ^ 31)))

/-- The key slot an ENCRYPT or DECRYPT with a nonzero block count names (R361).
DEDUCED: log entry 11. -/
def namesKey (c : Cmd) : Option Nat :=
  if c.target = 1 ∧ descOk 1 c.desc ∧ dC c.desc ≠ 0 then some (dArg c.desc % 128) else none

/-- A command ends: its completion item is held for its queue (R322). -/
def State.finish (s : State) (c : Cmd) (status : W16) (detail : Nat := 0) (result : Nat := 0) (mark : Bool := false) : State :=
  { s with held := s.held ++ [⟨completionItem c.target (dCode c.desc) mark status detail result (dTag c.desc), c⟩] }

/-! ## Commit groups that fail (R59, R67, R339) -/

/-- The first quad-written yealm number (R51). -/
def quadBase : Nat := 0x8000000

/-- The first yealm number that a group after one with this last number has, resumed after its seal or not (R58, R59, R65, R67). -/
def nextFirst (ridge resumed : Bool) (last : Nat) : Nat :=
  if last = quadBase then 0
  else if resumed && ridge && last % 16 != 15 then 16 * (last / 16 + 1)
  else last + 1

/-- The highest quad-written yealm number of the groups sealed by a list of seals (R67). -/
def quadTop (l : List SealRec) : Nat := l.foldl (fun m r => if r.idxCount = 0 then m else max m (r.idxFirst + r.idxCount - 1)) quadBase

/-- The commit sequence number of the group that is open (R65): one past the group closed last, or the last valid seal. -/
def State.openGroup (s : State) : Nat :=
  match s.hst.closed.getLast?, s.fmt.chain.getLast? with
  | some g, _ => g.seq + 1
  | none, some q => q.seq + 1
  | none, none => 1

/-- The group with which writing resumes after the group closed last, or else after the last valid seal (R59, R67, R90). -/
def State.resumeGroup (s : State) : UnitGroup :=
  match s.hst.closed.getLast?.map ClosedGroup.record, s.fmt.chain.getLast?.map SealRec.record with
  | none, none => {}
  | some r, _ => after' r
  | none, some r => after' r
where
  after' (r : List Byte) : UnitGroup :=
    let y := nextFirst s.fmt.ridgeProtection true (natAt r 20 4)
    let cum := BitVec.ofNat 32 (natAt r 28 4)
    { first := y, next := y, cumBefore := cum, cum := cum, resumed := true }

/-- A stream without what its open segment holds; the next segment starts a run (R229). -/
def Stream.cleaned (x : Stream) : Stream :=
  { x with body := [], orig := 0, firstAt := 0, began := [], touched := [], runNext := true, runStart := false }

/-- The program set's groups from a commit sequence number on fail and are not sealed (R339): the work items that wait for them end
with the status, what they held is absent, and writing resumes after the group before them (R59, R67).
DESIGN CHOICE: log entry 93. -/
def State.failFrom (s : State) (q : Nat) (st : W16) : State :=
  let s := { s with hst := { s.hst with closed := s.hst.closed.filter fun g => decide (g.seq < q) } }
  let g := s.resumeGroup
  let last := s.openGroup - 1
  let end1 (w : Waiting) : Waiting := if q ≤ w.seq ∧ !w.due then { w with due := true, order := s.nextSeq, status := st, result := 0 } else w
  { s with
    wrc := { s.wrc with resume := (s.wrc.resume.filter fun e => decide (e.2 < last)) ++ [(s.nextSeq, last)] }
    hst := { s.hst with
      waiting := s.hst.waiting.map end1
      sealing := s.hst.sealing.filter fun (e : Nat × Nat) => decide (e.1 < q)
      streams := s.hst.streams.mapTo (fun _ => {}) fun _ x => x.cleaned
      group := g
      index := s.hst.index.filter fun e => decide (e.yealm < g.first)
      records := s.hst.records.filter fun (r : RecordInfo) => r.yealm.any fun y => decide (y < g.first)
      quadNext := s.hst.closed.foldl (fun n (g : ClosedGroup) => n + g.parts.length) (quadTop s.fmt.chain + 1) } }

/-- The program set's group that a data yealm number lies in. -/
def State.groupWith (s : State) (y : Nat) : Option Nat :=
  match s.hst.closed.find? fun (g : ClosedGroup) => decide (natAt g.record 16 4 ≤ y) && decide (y ≤ natAt g.record 20 4) with
  | some g => some g.seq
  | none => if s.hst.group.first ≤ y ∧ y < s.hst.group.next then some s.openGroup else none

/-- A command on a yealm of the program set's groups ends with a status (R339). -/
def State.dataFault (s : State) (y : Nat) (st : W16) : State :=
  match s.groupWith y with
  | some q => s.failFrom q st
  | none => s

/-- A SEAL that ends other than OK is remembered for the LEAK_COMMITs staged with it (R423), and a group of the program set that it
was to seal fails (R337, R339); other commands leave no such trace. -/
def State.sealFail (s : State) (c : Cmd) (st : W16) : State :=
  if c.target = 2 ∧ dCode c.desc = 3 then
    let s := { s with fmt := { s.fmt with sealFailed := s.fmt.sealFailed ++ [(c.txn, st)] } }
    if s.hst.closed.any fun g => g.seq == c.txSeq then s.failFrom c.txSeq st else s
  else s

/-- Buffers go back to the stream cores (R322). -/
def State.giveBack (s : State) (l : List W32) : State :=
  s.each l fun s h => s.setBufOf h { s.bufOf h with owner := Owner.cores }

/-- A held completion enters its queue when that is enabled and has room, and its buffers go back in the same cycle (R322,
R499). -/
def State.putHeld (s : State) (h : Held) : State :=
  let s := s.qChecked h.cmd.cq
  if s.qRoom h.cmd.cq then
    let s := { s with held := s.held.erase h }
    (((s.qput h.cmd.cq h.item).1).giveBack h.cmd.taken).lockCheck
  else s

/-! ## Room and placement -/

/-- A placement a CMP command may have (R234): a lane, a lane of its role not enabled, or none needed (R238). -/
inductive Placed where
  | lane (l : Nat)
  | noLane
  | noNeed
  deriving DecidableEq, Repr

/-- How many accepted commands wait on a CMP lane. -/
def laneLen (cs : List Cmd) (l : Nat) : Nat := (cs.filter fun c => c.lane == some l).length

/-- The enabled lane of a role with the fewest queued commands, lowest number first (R234). -/
def fewest (cs : List Cmd) : List Nat → Option Nat
  | [] => none
  | l :: ls => match fewest cs ls with
    | none => some l
    | some m => if laneLen cs m < laneLen cs l then some m else some l

/-- The enabled lanes of a role: 0 to 3 to compress, 4 to 7 to decompress (R231). -/
def State.lanesOf (s : State) (decomp : Bool) : List Nat :=
  let en := s.fld (if decomp then F.CMP_CTL.DLANE_EN else F.CMP_CTL.CLANE_EN)
  ((List.range 4).filter fun k => en.testBit k).map fun k => if decomp then k + 4 else k

/-- The lane that a slot is bound to (R234). -/
def boundLane (m : SMap (Option Nat)) (slot : Nat) : Option Nat := m.get (fun _ => none) slot

/-- The placement of a CMP descriptor (R234) over the commands accepted and the bindings as they stand. A CTX_SAVE goes to the
lane its slot is bound to, or else to that of the slot's latest queued command, whose turn comes before it (R235), or to the one it
is loaded on; with none of these it needs none (R238). -/
def State.place (s : State) (cs : List Cmd) (bound : SMap (Option Nat)) (d : List Byte) : Placed :=
  let slot := dArg d % 64
  let b := boundLane bound slot
  if dCode d = 4 then
    match b with
    | some l => .lane l
    | none => match (cs.filter fun c => dArg c.desc % 64 == slot).getLast?.bind fun c => c.lane with
      | some l => .lane l
      | none => match (List.range 8).find? fun l => (s.lanes.get (fun _ => {}) l).loaded == some slot with
        | some l => .lane l
        | none => .noNeed
  else
    let decomp := if dCode d = 3 then (dArg d).testBit 10 else dCode d == 2
    let hint := (if decomp then 4 else 0) + dArg d / 128 % 4
    let free := match (if dCode d ≠ 3 ∧ (dArg d).testBit 9 ∧ hint ∈ s.lanesOf decomp then some hint
        else fewest cs (s.lanesOf decomp)) with
      | some l => Placed.lane l
      | none => .noLane
    match b with
    | some l => if (4 ≤ l) = decomp then .lane l else free
    | none => free

/-- Whether an engine's RUN lets its commands run: CMP (R244), CIP (R366), TEAM (R433) and RNG (R299) have a RUN that commands
depend on; HST's gates fetching only (R387), and KEY, FMT and TIL have none. After a PERST_N and until the link is up again HST counts as
stopped, so that what it accepts ends NOT_READY (R500). -/
def State.engineOn (s : State) (t : Nat) : Bool :=
  match t with
  | 0 => s.flag F.CMP_CTL.RUN
  | 1 => s.flag F.CIP_CTL.RUN
  | 3 => s.flag F.TEAM_CTL.RUN
  | 4 => !s.hst.afterPerst
  | 5 => s.flag F.RNG_CTL.RUN
  | 6 => s.flag F.RNG_CTL.RUN
  | _ => true

/-- Whether an engine's command queue takes one more command from a core (R234: 8 a lane; R348: 4 a core; elsewhere the depth
the spec leaves open, DESIGN CHOICE, log entry 21). What a stopped engine ends as it accepts it (R299) needs no room, nor does what
no lane of CMP is to take. -/
def State.cmdRoom (s : State) (core t : Nat) (d : List Byte) (cs : List Cmd) (bound : SMap (Option Nat)) : Bool :=
  if !s.engineOn t then true
  else match t with
    | 0 => if !descOk 0 d then true else match s.place cs bound d with
      | .lane l => decide (laneLen cs l < 8)
      | _ => true
    | 1 => decide ((cs.filter fun c => c.core == core).length < 4)
    | _ => decide (cs.length < Config.engineDepth t + 1)

/-! ## Acceptance -/

/-- The buffers of a list that an engine takes, those of them that name a live buffer of the stream cores, each once; and
whether any named buffer has another owner (R322). -/
def State.takeList (s : State) (l : List W32) : List W32 × Bool :=
  let live := l.eraseDups.filter fun h => s.handleInClass h && s.handleLive h
  let bad := live.any fun h => (s.bufOf h).owner != Owner.cores
  (live.filter fun h => (s.bufOf h).owner == Owner.cores, bad)

/-- Buffers pass to an engine (R11). -/
def State.takeBuffers (s : State) (t : Nat) (l : List W32) : State :=
  match tgtOwner t with
  | some o => s.each l fun s h => s.setBufOf h { s.bufOf h with owner := o }
  | none => s

/-- The provisional mark of the live buffer a handle names set or cleared (R355). -/
def State.setProvisional (s : State) (h : W32) (v : Bool) : State :=
  if s.handleInClass h && s.handleLive h then s.setBufOf h { s.bufOf h with provisional := v } else s

/-- A command leaves its engine's queue as it starts. -/
def State.start (s : State) (c : Cmd) : State := s.setCmds c.target ((s.cmds c.target).erase c)

/-- Ill-formed commands at the head of their core's queue of CIP end BAD_PARAM (R322, R348), each core's in the order of
acceptance. -/
def State.endBad (s : State) : State :=
  s.each (s.cmds 1) fun s c =>
    if !descOk 1 c.desc && (s.cmds 1).find? (fun x => x.core == c.core) == some c then (s.start c).finish c St.BAD_PARAM else s

/-- An engine accepts a command (R11, R299): it takes the buffers named, a block command of CIP marks its output buffer
provisional (R355), and the command joins its queue. A stopped engine's
command ends NOT_READY (R299), an ill-formed descriptor BAD_PARAM (R322), and a CMP command without a lane as R234 and R238
say; these end as they are accepted, but an ill-formed one of CIP in its core's order (R348).
DEDUCED: log entry 34. -/
def State.accept (s : State) (core t : Nat) (d : List Byte) (cq : Nat) : State :=
  let (tk, bad) := if descOk t d then s.takeList (namedBuffers t d) else ([], false)
  let tk := if (tgtOwner t).isSome then tk else []
  let s := s.takeBuffers t tk
  let s := if t = 1 ∧ descOk t d ∧ dC d ≠ 0 then s.setProvisional (taHandle (dB d)) true else s
  let c : Cmd := { core := core, target := t, desc := d, cq := cq, seq := s.nextSeq, txSeq := (s.txr.get (fun _ => 0) 0).toNat,
                   badOwner := bad, taken := tk, txn := s.txMark }
  let s := { s with nextSeq := s.nextSeq + 1 }
  if !descOk t d ∧ t ≠ 1 then (s.sealFail c St.BAD_PARAM).finish c St.BAD_PARAM
  else if !s.engineOn t then s.finish c (if descOk t d then St.NOT_READY else St.BAD_PARAM)
  else if t = 0 then
    match s.place (s.cmds 0) s.slotLane d with
    | .noLane => s.finish c St.NOT_READY
    | .noNeed => s.finish c St.OK
    | .lane l =>
      let s := { s with slotLane := s.slotLane.set (fun _ => none) (dArg d % 64) (some l) }
      s.setCmds 0 (s.cmds 0 ++ [{ c with lane := some l }])
  else
    let s := s.setCmds t (s.cmds t ++ [c])
    if t = 1 then s.endBad else s

/-! ## Starting a command -/

/-- Whether an earlier command of the same core at the same engine has not completed (R317): it waits, runs, or its item is
held. -/
def State.earlierOpen (s : State) (c : Cmd) : Bool :=
  let e (x : Cmd) : Bool := x.core == c.core && x.target == c.target && decide (x.seq < c.seq)
  (s.cmds c.target).any e ||
    s.held.any (fun h => e h.cmd) ||
    s.fmt.jobs.any (fun j => e j.cmd) || s.fmt.seals.any (fun j => e j.cmd) ||
    s.rng.sending.any (fun x => e x.cmd) || s.rng.posted.any e || s.rng.reasm.any (fun x => e x.cmd) ||
    s.team.chains.any (fun x => e x.cmd) || s.team.leaks.any (fun x => e x.cmd)

/-- Whether a command may start as far as FENCE goes (R317). -/
def State.fenceOpen (s : State) (c : Cmd) : Bool := !dFence c.desc || !s.earlierOpen c

/-- Command `i` of an engine's queue, if the engine's clock runs (R15), the command has this code and FENCE lets it start. -/
def State.ready (s : State) (t i code : Nat) : Option Cmd :=
  match (s.cmds t)[i]? with
  | some c => if s.clocked ∧ dCode c.desc = code ∧ s.fenceOpen c then some c else none
  | none => none

/-- A command of an engine starts and is carried out: one that named a buffer of another owner ends BAD_OWNER with nothing read
or written (R322). -/
def runCmd (t i code : Nat) (s : State) (f : Cmd → State → State) : Res :=
  match s.ready t i code with
  | none => .next s
  | some c =>
    let s := s.start c
    .next (if c.badOwner then s.finish c St.BAD_OWNER else f c s)

/-- The range of an engine's tile address checked by R264; the taken buffer's owner is the engine. -/
def State.engCheck (s : State) (c : Cmd) (a : W64) (len : Nat) : Option W16 :=
  s.checkUse (taHandle a) (taOff a) len 1 (some (match tgtOwner c.target with
    | some o => o
    | none => Owner.cores))

/-- The same for a range the engine writes: the transactional image takes no store (R329). -/
def State.engCheckW (s : State) (c : Cmd) (a : W64) (len : Nat) : Option W16 :=
  match s.engCheck c a len with
  | some e => some e
  | none =>
    if s.isImage (taHandle a) then some St.BAD_OWNER else none

/-- The check of a yealm buffer: class 6 or 7 (R319), then the range.
DESIGN CHOICE: log entry 106. -/
def State.yealmCheck (s : State) (c : Cmd) (a : W64) (len : Nat) (write : Bool) : Option W16 :=
  if hClass (taHandle a) < 6 then some St.BAD_PARAM else if write then s.engCheckW c a len else s.engCheck c a len

/-- The first failing status of a list of checks.
DEDUCED: log entry 29. -/
def firstBad : List (Option W16) → Option W16
  | [] => none
  | some e :: _ => some e
  | none :: l => firstBad l

/-- The bytes of a range tile by tile, each piece with its poison mark (R255). -/
def State.taPieces (s : State) (a : W64) (n : Nat) : List (List Byte × Bool) :=
  (s.spansOf (taHandle a) (taOff a) n).map fun e => (s.tileBytes e.1 e.2.1 e.2.2, (s.tileRec e.1).poison)

/-- Pieces written in a row from a tile address, each with its mark (R250, R255). -/
def State.taWritePieces (s : State) (a : W64) : List (List Byte × Bool) → State
  | [] => s
  | (l, m) :: ps =>
    State.taWritePieces (s.bufWrite (taHandle a) (taOff a) l m) (mkTa (taHandle a) (taOff a + l.length)) ps

/-- Bytes an engine reads at a tile address (R252, R255). -/
def State.taRead (s : State) (a : W64) (n : Nat) : State × List Byte × Bool := s.bufRead (taHandle a) (taOff a) n
/-- Bytes an engine writes at a tile address (R250, R255). -/
def State.taWrite (s : State) (a : W64) (l : List Byte) (mark : Bool) : State := s.bufWrite (taHandle a) (taOff a) l mark

end Sys2Proof.Machine
end

