-- ==== Sys2Proof/Machine/QueueOps.lean ====
section
/-!
DEFINITION. Queue, pool and issue instructions of the stream cores (R296 to R299), which inside a transaction stage their
action (R304).
-/
namespace Sys2Proof.Machine

/-! ## Staging (R304) -/

/-- An action staged by a core: 64 at most; a 65th sets ABORTED with cause CAPACITY, and after ABORTED nothing is staged. The
second component says whether it was staged. -/
def State.stage (s : State) (n : Nat) (a : Staged) : State × Bool :=
  let c := s.core n
  if c.aborted then (s, false)
  else if c.staged.length < 64 then (s.setCore n { c with staged := c.staged ++ [a] }, true)
  else
    let s := s.setCore n { c with aborted := true, cause := 2, staged := [] }
    (s.bump F.CORE_TXCNT.CAPACITY, false)

/-- Whether a core is in a transaction that is aborted: staging instructions then do nothing and return TX_ABORT, or Q = 0 (R304).
What is ILLEGAL in the word itself stays so. -/
def Core.inAborted (c : Core) : Bool := c.depth != 0 && c.aborted

/-- Q written by an instruction that names it (R280). -/
def Core.setQ (c : Core) (q : Bool) : Core := { c with fq := q }

/-- The state with a status in rd and Q (R297, R299, R303). -/
def State.statusTo (s : State) (n : Nat) (rd : Rf) (st : W16) : State :=
  s.setCore n (((s.core n).setG rd (st.zeroExtend 64) false).setQ (st == St.OK))

/-- The queue operand of QPUT, QGET and QCNT: above 511, or disabled, it raises ACCESS with BAD_PARAM (R296). -/
def State.queueBad (s : State) (v : W64) : Bool := decide (511 < v.toNat) || !s.qEnabled v.toNat

/-! ## Queues (R296) -/

/-- QPUT: the item of wide register rb goes to queue ra. -/
def execQput (n : CoreId) (rd ra rb : Rf) (s : State) : Res :=
  laruf n s fun c =>
    if rd ≠ 0 ∨ 15 < rb.toNat then illegal
    else if c.inAborted then .done (s.setCore n (c.setQ false))
    else if c.gm ra ∨ c.wm rb then poisoned
    else if s.queueBad (c.gv ra) then .raise Exc.ACCESS (some (c.gv ra)) St.BAD_PARAM
    else if c.depth ≠ 0 then
      let (s, ok) := s.stage n (.qput (c.gv ra).toNat (c.wv rb))
      .done (s.setCore n ((s.core n).setQ ok))
    else
      let (s, ok) := s.qput (c.gv ra).toNat (c.wv rb)
      .done (s.setCore n ((s.core n).setQ ok))

/-- QGET: an item of queue ra to wide register rd, or 128 zero bits from an empty queue. -/
def execQget (n : CoreId) (rd ra rb : Rf) (s : State) : Res :=
  laruf n s fun c =>
    if 15 < rd.toNat ∨ rb ≠ 0 then illegal
    else if c.gm ra then poisoned
    else if s.queueBad (c.gv ra) then .raise Exc.ACCESS (some (c.gv ra)) St.BAD_PARAM
    else
      let (s, item) := s.qget (c.gv ra).toNat
      .done (s.setCore n (((s.core n).setW rd (item.getD 0) false).setQ item.isSome))

/-- QCNT: rd = the item count of queue ra; Q is unchanged. -/
def execQcnt (n : CoreId) (rd ra rb : Rf) (s : State) : Res :=
  laruf n s fun c =>
    if rb ≠ 0 then illegal
    else if c.gm ra then poisoned
    else if s.queueBad (c.gv ra) then .raise Exc.ACCESS (some (c.gv ra)) St.BAD_PARAM
    else
      let s := s.qCompare (c.gv ra).toNat
      .done (s.setCore n ((s.core n).setG rd (BitVec.ofNat 64 (s.qCount (c.gv ra).toNat)) false))

/-! ## Pools (R297) -/

/-- BALLOC: a buffer of class ra, its handle to rd; on EMPTY all ones and Q 0. -/
def execBalloc (n : CoreId) (rd ra rb : Rf) (s : State) : Res :=
  laruf n s fun c =>
    if rb ≠ 0 then illegal
    else if c.gm ra then poisoned
    else if 7 < (c.gv ra).toNat then .raise Exc.ACCESS (some (c.gv ra)) St.BAD_PARAM
    else match s.alloc (c.gv ra).toNat Owner.cores n with
      | (s, some h) => .done (s.setCore n (((s.core n).setG rd (h.zeroExtend 64) false).setQ true))
      | (s, none) => .done (s.setCore n (((s.core n).setG rd 0xFFFFFFFFFFFFFFFF false).setQ false))

/-- BFREE: frees handle ra[31:0], its status to rd. In a transaction the checks are made, a failed one as a
failed free of R267, and the free is staged (R304). -/
def execBfree (n : CoreId) (rd ra rb : Rf) (s : State) : Res :=
  laruf n s fun c =>
    if rb ≠ 0 then illegal
    else if c.inAborted then .done (s.statusTo n rd St.TX_ABORT)
    else if c.gm ra then poisoned
    else
      let h : W32 := (c.gv ra).truncate 32
      if c.depth ≠ 0 then
        match s.freeCheck h Owner.cores with
        | some e => .done ((s.freeFailed h e n).statusTo n rd e)
        | none =>
          let (s, ok) := s.stage n (.bfree h)
          .done (s.statusTo n rd (if ok then St.OK else St.TX_ABORT))
      else
        let (s, st) := s.release h Owner.cores n
        .done (s.statusTo n rd st)

/-! ## Engine issue (R298, R299) -/

/-- Whether an engine has room for a command of a core. -/
def State.roomFor (s : State) (n t : Nat) (d : List Byte) : Bool := s.cmdRoom n t d (s.cmds t) s.slotLane

/-- ISSUE: the descriptor at LDM address ra to an engine target; a refused target is the operand that FADDR records (R307). A
blocking ISSUE to a full queue stalls; a non-blocking one returns EMPTY. -/
def execIssue (n : CoreId) (rd ra : Rf) (target : Rf) (mode : BitVec 2) (cq : BitVec 9) (s : State) : Res :=
  laruf n s fun c =>
    let t := target.toNat
    if 8 < t ∨ !c.engineMask.getLsbD t then .raise Exc.ILLEGAL (some (BitVec.ofNat 64 t)) 0
    else if 1 < mode.toNat then illegal
    else if c.inAborted then .done (s.statusTo n rd St.TX_ABORT)
    else if c.gm ra then poisoned
    else if 65535 < (c.gv ra).toNat then .raise Exc.LOCAL_RANGE (some (c.gv ra)) 0
    else if (c.gv ra).toNat % 32 ≠ 0 then .raise Exc.ALIGN (some (c.gv ra)) 0
    else if c.ldmMarked (c.gv ra).toNat 32 then poisoned
    else if !s.qEnabled cq.toNat then .raise Exc.ACCESS (some (cq.zeroExtend 64)) St.BAD_PARAM
    else
      let d := c.ldmBytes (c.gv ra).toNat 32
      if c.depth ≠ 0 then
        let (s, ok) := s.stage n (.issue t d cq.toNat)
        .done (s.statusTo n rd (if ok then St.OK else St.TX_ABORT))
      else if s.roomFor n t d then .done ((s.accept n t d cq.toNat).statusTo n rd St.OK)
      else if mode = 1 then .done (s.statusTo n rd St.EMPTY)
      else .stay (s.setCore n { c with stall := .issue rd t d cq.toNat })

/-- ISSUE_ACCEPT (R299): the engine accepts the descriptor of a core stalled in a blocking ISSUE, once its queue has room. -/
def execIssueAccept (n : CoreId) (s : State) : Res :=
  let c := s.core n
  whileClocked s <| match c.run, c.stall with
  | .running, .issue rd t d cq =>
    if s.roomFor n t d then
      let s := s.setCore n { c with stall := .none }
      let s := (s.accept n t d cq).statusTo n rd St.OK
      .next (s.setCore n (s.core n).advance)
    else .next s
  | _, _ => .next s

end Sys2Proof.Machine
end

