-- ==== Sys2Proof/Machine/Trans.lean ====
section
/-!
DEFINITION. Transactions (R303 to R305, R328 to R332): beginning, staging of register writes, commit and abort.
-/
namespace Sys2Proof.Machine

/-- Whether a word of a team slot is laid out (R411). -/
def teamWord (w : Nat) : Bool :=
  decide (w ≤ 0x004) || (decide (0x010 ≤ w) && decide (w ≤ 0x021)) || (decide (0x040 ≤ w) && decide (w ≤ 0x04F)) ||
    (decide (0x100 ≤ w) && decide (w ≤ 0x1FF))

/-- Whether an address names a transactional register (R328): reserved addresses, and words the layouts reserve, do not. -/
def txrValid (a : Nat) : Bool :=
  decide (a ≤ 4) ||
    (decide (0x100 ≤ a) && decide (a < 0x900) && decide ((a - 0x100) % 8 < 5)) ||
    (decide (0x1000 ≤ a) && decide (a < 0x5000)) ||
    (decide (0x5000 ≤ a) && decide (a < 0x5800) && decide ((a - 0x5000) % 8 < 5)) ||
    (decide (0x10000 ≤ a) && decide (a < 0x20000) && teamWord (a % 0x8000))

/-- A transactional register. -/
def State.txReg (s : State) (a : Nat) : W64 := s.txr.get (fun _ => 0) a

/-- TXB (R303, R305): DEPTH goes up; at DEPTH 0 ABORTED and CAUSE clear. -/
def execTxb (n : CoreId) (rd ra rb : Rf) (s : State) : Res :=
  laruf n s fun c =>
    if rd ≠ 0 ∨ ra ≠ 0 ∨ rb ≠ 0 ∨ 63 ≤ c.depth then illegal
    else if c.depth = 0 then coreDone n s { c with depth := 1, aborted := false, cause := 0, staged := [], overlap := false }
    else coreDone n s { c with depth := c.depth + 1 }

/-- TXA (R303): ABORTED with cause TXA, every staged action discarded.
DEDUCED: log entry 79. -/
def execTxa (n : CoreId) (rd ra rb : Rf) (s : State) : Res :=
  laruf n s fun c =>
    if rd ≠ 0 ∨ ra ≠ 0 ∨ rb ≠ 0 ∨ c.depth = 0 then illegal
    else coreDone n s { c with aborted := true, cause := 4, staged := [] }

/-- TSET (R303): stages a write of rb to transactional register ra[19:0]. -/
def execTset (n : CoreId) (rd ra rb : Rf) (s : State) : Res :=
  laruf n s fun c =>
    if rd ≠ 0 ∨ c.depth = 0 then illegal
    else if c.inAborted then coreDone n s c
    else if c.gm ra ∨ c.gm rb then poisoned
    else
      let a := (c.gv ra).toNat % 2 ^ 20
      if !txrValid a then .raise Exc.ACCESS (some (BitVec.ofNat 64 a)) St.BAD_PARAM
      else .done (s.stage n (.tset a (c.gv rb))).1

/-! ## Commit -/

/-- The addresses a list of actions sets. -/
def tsets (l : List Staged) : List Nat := l.filterMap fun a => match a with
  | .tset a _ => some a
  | _ => none

/-- Items a list of actions puts in a queue. -/
def qputsTo (l : List Staged) (q : Nat) : Nat := (l.filter fun a => match a with
  | .qput r _ => r == q
  | _ => false).length

/-- Whether every engine has room for the ISSUEs of a list, earlier ones taken as placed (R331). `extra` are the commands that
the list has placed so far, `bound` the bindings with them. -/
def State.issueRoom (s : State) (n : Nat) (extra : List Cmd) (bound : SMap (Option Nat)) : List Staged → Bool
  | [] => true
  | .issue t d cq :: rest =>
    let cs := s.cmds t ++ extra.filter fun c => c.target == t
    let ends := (!descOk t d && t != 1) || !s.engineOn t
    s.cmdRoom n t d cs bound &&
      (if ends then State.issueRoom s n extra bound rest
       else
        let c : Cmd := { core := n, target := t, desc := d, cq := cq, seq := 0 }
        match (if t = 0 then s.place cs bound d else .noNeed) with
        | .lane l => State.issueRoom s n (extra ++ [{ c with lane := some l }]) (bound.set (fun _ => none) (dArg d % 64) (some l)) rest
        | .noLane => State.issueRoom s n extra bound rest
        | .noNeed => State.issueRoom s n (if t = 0 then extra else extra ++ [c]) bound rest)
  | _ :: rest => State.issueRoom s n extra bound rest

/-- Whether every queue that the staged actions enter has room, at once, for all of them (R331). -/
def State.commitRoom (s : State) (n : Nat) (l : List Staged) : Bool :=
  (l.all fun a => match a with
    | .qput q _ => s.qEnabled q && decide (s.qCount q + qputsTo l q ≤ s.qDepth q)
    | _ => true) && s.issueRoom n [] s.slotLane l

/-- The comparison of R272 for every queue that the staged puts of a core enter. -/
def State.comparePuts (s : State) (l : List Staged) : State :=
  s.each l fun s a => match a with
    | .qput q _ => s.qChecked q
    | _ => s

/-- Whether every staged free names a buffer the stream cores still own at the same generation (R331), each once. -/
def State.commitFrees (s : State) (l : List Staged) : Bool :=
  let hs := l.filterMap fun a => match a with
    | .bfree h => some h
    | _ => none
  (hs.all fun h => (s.freeCheck h Owner.cores).isNone) && hs.eraseDups.length == hs.length

/-- A committed TSET: the register, and its copy in the transactional image (R329). -/
def State.tset (s : State) (a : Nat) (v : W64) : State :=
  let s := { s with txr := s.txr.set (fun _ => 0) a v }
  s.bufWrite s.imageHandle (8 * a) (leBytes 8 v.toNat) false

/-- One staged action carried out (R330). -/
def State.act (s : State) (n : Nat) : Staged → State
  | .tset a v => s.tset a v
  | .bfree h => s.freeBuf h
  | .qput q i => (s.qput q i).1
  | .issue t d cq => s.accept n t d cq

/-- The place of a staged action in the order of R330. -/
def Staged.rank : Staged → Nat
  | .tset _ _ => 0
  | .bfree _ => 1
  | .qput _ _ => 2
  | .issue _ _ _ => 3

/-- Staged actions carried out in the order of R330, the commands among them marked as of one transaction. -/
def State.actions (s : State) (n : Nat) (l : List Staged) : State :=
  let s := { s with txMark := s.nextSeq + 1 }
  let s := s.each [0, 1, 2, 3] fun s k => s.each (l.filter fun a => a.rank == k) fun s a => s.act n a
  { s with txMark := 0 }

/-- Transactions of other cores that have staged a TSET to an address just committed can no longer commit (R331). -/
def State.markOverlap (s : State) (n : Nat) (l : List Nat) : State :=
  s.each (List.range 16) fun s k =>
    let c := s.core k
    if k != n && c.depth != 0 && (tsets c.staged).any (fun a => l.contains a) then s.setCore k { c with overlap := true } else s

/-- A commit: the staged actions in the order of R330, in one step. -/
def State.commitTx (s : State) (n : Nat) : State :=
  let l := (s.core n).staged
  let s := s.setCore n { s.core n with staged := [], depth := 0, overlap := false, stall := .none }
  let s := s.actions n l
  (s.markOverlap n (tsets l)).bump F.CORE_TXCNT.COMMITS

/-- An abort at TXC with a cause (R331). -/
def State.abortTx (s : State) (n cause : Nat) : State :=
  let s := s.setCore n { s.core n with staged := [], depth := 0, overlap := false, aborted := true, cause := cause, stall := .none }
  if cause = 1 then s.bump F.CORE_TXCNT.CONFLICTS else if cause = 2 then s.bump F.CORE_TXCNT.CAPACITY else s

/-- TXC at DEPTH 1 with ABORTED clear (R331): an image that names no valid buffer aborts with FAULT (R342), a failed free or an
overlap with CONFLICT; none for want of room, on which TXC stalls. -/
def State.tryCommit (s : State) (n : Nat) : State × Option Bool :=
  let c := s.core n
  if !s.imageOk then (s.abortTx n 3, some false)
  else if !s.commitFrees c.staged || c.overlap then (s.abortTx n 1, some false)
  else
    let s := s.comparePuts c.staged
    if s.commitRoom n c.staged then (s.commitTx n, some true) else (s, none)

/-- TXC (R303): DEPTH goes down; at 0 the transaction commits unless ABORTED is set. -/
def execTxc (n : CoreId) (rd ra rb : Rf) (s : State) : Res :=
  laruf n s fun c =>
    if ra ≠ 0 ∨ rb ≠ 0 ∨ c.depth = 0 then illegal
    else if 1 < c.depth then
      .done ((s.setCore n { c with depth := c.depth - 1 }).statusTo n rd (if c.aborted then St.TX_ABORT else St.OK))
    else if c.aborted then
      .done ((s.setCore n { c with depth := 0, staged := [], overlap := false }).statusTo n rd St.TX_ABORT)
    else match s.tryCommit n with
      | (s, some ok) => .done (s.statusTo n rd (if ok then St.OK else St.TX_ABORT))
      | (s, none) => .stay (s.setCore n { s.core n with stall := .commit rd })

/-- TX_COMMIT (R331): a TXC stalled for want of room commits once room exists, or aborts if another condition has failed
meanwhile. -/
def execTxCommit (n : CoreId) (s : State) : Res :=
  whileClocked s <| match (s.core n).run, (s.core n).stall with
  | .running, .commit rd =>
    match s.tryCommit n with
    | (s, some ok) =>
      let s := s.statusTo n rd (if ok then St.OK else St.TX_ABORT)
      .next ((s.setCore n (s.core n).advance).coreBoundary n)
    | (s, none) => .next s
  | _, _ => .next s

/-- TX_CAPACITY_TIMEOUT (R331): after 4,096 cycles without room the transaction aborts with cause CAPACITY.
DEDUCED: log entry 77; DEDUCED: log entry 79. -/
def execTxCapacityTimeout (n : CoreId) (s : State) : Res :=
  whileClocked s <| match (s.core n).run, (s.core n).stall with
  | .running, .commit rd =>
    let s := (s.abortTx n 2).statusTo n rd St.TX_ABORT
    .next ((s.setCore n (s.core n).advance).coreBoundary n)
  | _, _ => .next s

end Sys2Proof.Machine
end

