-- ==== Sys2Proof/Machine/Lock.lean ====
section
/-!
DEFINITION. The fields of a CIP command's descriptor (R318).
-/
namespace Sys2Proof.Machine

/-- Block count of a CIP command. -/
def cipCount (d : List Byte) : Nat := dC d
/-- Key slot a CIP command names. -/
def cipSlot (d : List Byte) : Nat := dArg d % 128
/-- Key size code of a CIP command. -/
def cipSize (d : List Byte) : Nat := dArg d / 256 % 4
/-- Whether a CIP command is urgent. -/
def cipUrgent (d : List Byte) : Bool := (dArg d).testBit 10

end Sys2Proof.Machine
end

