-- ==== Sys2Proof/Machine/Cipher.lean ====
section
/-!
DEFINITION. The cipher engine (R343 to R352, R366): block commands with their checks, CIP_LOCK and its messages. A block command
is one step of the model, so a message is suspended (R351) between two of its commands only.
-/
namespace Sys2Proof.Machine

/-- A key slot. -/
def State.key (s : State) (n : Nat) : KeySlot := s.keys.get (fun _ => {}) n

/-- The key of a slot in storage order. -/
def KeySlot.bytes (k : KeySlot) : List Byte := leBytes (16 + 8 * k.ksize) k.key.toNat

/-- Whether a key slot is held (R361): named by an accepted block command that has not completed, or SLOT of a message.
DEDUCED: log entry 11. -/
def State.slotHeld (s : State) (n : Nat) : Bool :=
  (s.cmds 1).any (fun c => namesKey c == some n) || s.held.any (fun h => namesKey h.cmd == some n) ||
    (s.lockHeld && s.fld F.CIP_LOCK.SLOT == n)

/-! ## Checks (R345) -/

/-- Check 2 of R345: offsets multiples of 16, ranges equal or disjoint. -/
def cipRanges (d : List Byte) : Bool :=
  let a := dA d
  let b := dB d
  let n := 16 * dC d
  taOff a % 16 == 0 && taOff b % 16 == 0 &&
    (taHandle a != taHandle b || taOff a == taOff b || decide (taOff a + n ≤ taOff b) || decide (taOff b + n ≤ taOff a))

/-- The first of the checks of R345 that a block command fails.
DEDUCED: log entry 10. -/
def State.cipCheck (s : State) (c : Cmd) : Option W16 :=
  let d := c.desc
  let k := s.key (cipSlot d)
  let n := 16 * dC d
  if 63 < cipSlot d ∨ cipSize d = 3 then some St.BAD_PARAM
  else if !cipRanges d then some St.BAD_PARAM
  else if cipUrgent d ∧ 4096 < dC d then some St.BAD_PARAM
  else match firstBad [s.checkRange (taHandle (dA d)) (taOff (dA d)) n, s.checkRange (taHandle (dB d)) (taOff (dB d)) n] with
    | some e => some e
    | none =>
      if c.badOwner then some St.BAD_OWNER
      else match firstBad [s.engCheck c (dA d) n, s.engCheckW c (dB d) n] with
        | some e => some e
        | none =>
          if !k.valid then some St.KEY_EMPTY
          else if k.ksize ≠ cipSize d ∨ !(if dCode d = 1 then k.enc else k.dec) then some St.BAD_PARAM
          else if !cipUrgent d ∧ s.lockHeld ∧ s.holder = c.core ∧
              (s.fld F.CIP_LOCK.SLOT ≠ cipSlot d ∨ s.fld F.CIP_LOCK.KSIZE ≠ cipSize d) then some St.BAD_PARAM
          else none

/-! ## Order (R348, R349) -/

/-- Whether a command is at the head of its core's queue and FENCE lets it start (R317, R348).
DEDUCED: log entry 10. -/
def State.cipHead (s : State) (c : Cmd) : Bool :=
  (List.find? (fun x : Cmd => x.core == c.core) (s.cmds 1)) == some c && s.fenceOpen c

/-- The block commands that may run as far as their checks go, oldest first. -/
def State.cipWaiting (s : State) (urgent : Bool) : List Cmd :=
  (s.cmds 1).filter fun c => s.cipHead c && dC c.desc != 0 && cipUrgent c.desc == urgent && (s.cipCheck c).isNone

/-- Whether it is a command's turn (R349): the oldest urgent command; the holder's when no urgent one waits.
DEDUCED: log entry 9. -/
def State.cipTurn (s : State) (c : Cmd) : Bool :=
  match s.cipWaiting true with
  | u :: _ => u == c
  | [] => s.lockHeld && s.holder == c.core

/-! ## Running -/

/-- Blocks of a piece processed one by one (R343). -/
def cipBlocks (dec : Bool) (key : List Byte) (l : List Byte) : List Byte :=
  (pieces 16 (l.length / 16) l).flatMap fun b => if dec then Aes.decrypt key b else Aes.encrypt key b

/-- A block command that passed its checks (R343, R346, R347); an urgent one is a message of its own, and suspends the message
in progress (R351).
DEDUCED: log entry 9. -/
def State.cipExec (s : State) (c : Cmd) : State :=
  let d := c.desc
  let s := s.start c
  let s := if cipUrgent d then (if s.lockHeld then s.bump F.CIP_CNT.SUSPENDS else s).bump F.CIP_CNT.MESSAGES else s
  let (s, _, m) := s.taRead (dA d) (16 * dC d)
  if m && s.busErr then s.finish c St.POISON
  else
    let ps := s.taPieces (dA d) (16 * dC d)
    let good := (ps.filter fun p => !p.2).foldl (fun n p => n + p.1.length / 16) 0
    let k := (s.key (cipSlot d)).bytes
    let s := s.taWritePieces (dB d) (ps.map fun p => (cipBlocks (dCode d == 2) k p.1, p.2))
    s.finish c (if m then St.POISON else St.OK) 0 good m

/-- An ENCRYPT with block count 0 at its queue's head (R350): from the holder it ends the message once the holder's earlier
commands have completed. -/
def State.encryptZero (s : State) (c : Cmd) : State :=
  if s.lockHeld ∧ s.holder = c.core then
    if s.earlierOpen c then s else ((s.start c).endMessage).finish c St.OK
  else (s.start c).finish c St.OK

/-- A DECRYPT with block count 0 at its queue's head (R355): the mark of the buffer that its output address names clears. -/
def State.decryptZero (s : State) (c : Cmd) : State :=
  ((s.start c).setProvisional (taHandle (dB c.desc)) false).finish c St.OK

/-- A block command of CIP at its queue's head: a failing check ends it, with block count 0 that of its buffers' owner alone (R322);
else it runs when its turn comes. -/
def cipRun (i code : Nat) (s : State) (zero : Cmd → State) : Res :=
  match s.ready 1 i code with
  | none => .next s
  | some c =>
    .next (if !s.cipHead c then s
      else if dC c.desc = 0 then (if c.badOwner then (s.start c).finish c St.BAD_OWNER else zero c).endBad
      else State.endBad <| match s.cipCheck c with
        | some e => (s.start c).finish c e
        | none => if s.cipTurn c then s.cipExec c else s)

/-- ENCRYPT (R343, R345, R350). -/
def execEncrypt (i : Nat) (s : State) : Res := cipRun i 1 s s.encryptZero

/-- DECRYPT (R343, R345, R355). -/
def execDecrypt (i : Nat) (s : State) : Res := cipRun i 2 s s.decryptZero

/-- CIP_LOCK_TAKE (R349): while the lock is free, the oldest waiting non-urgent block command takes it and a message starts. -/
def execCipLockTake (s : State) : Res :=
  whileClocked s <| if s.lockHeld then .next s
  else match s.cipWaiting false with
    | [] => .next s
    | c :: _ =>
      .next (((({ s with lockEnd := none }.setFld F.CIP_LOCK.HOLDER c.core).setFld F.CIP_LOCK.SLOT (cipSlot c.desc)).setFld
        F.CIP_LOCK.KSIZE (cipSize c.desc)).setFlag F.CIP_LOCK.HELD true)

/-- Commands of CIP end with a status, nothing processed (R350, R364, R366). -/
def State.cipEnd (s : State) (p : Cmd → Bool) (st : W16) : State :=
  s.each ((s.cmds 1).filter p) fun s c => (s.start c).finish c st

/-- The block command in progress when the alarm stops the round cores (R23, R364): how many of its blocks are done is open, as is how
many the four cores hold; those come out as zero blocks, and the command ends KEY_GONE with the blocks done as its result.
DEDUCED: log entry 9. -/
def State.cipStruck (s : State) : State :=
  match (s.cmds 1).find? fun c => s.cipHead c && dC c.desc != 0 && (s.cipCheck c).isNone && s.cipTurn c with
  | none => s
  | some c =>
    let d := c.desc
    let n := (Config.freeW64 s.freeCtr).toNat % (dC d + 1)
    let z := min ((Config.freeW64 (s.freeCtr + 1)).toNat % 5) (dC d - n)
    let s := (s.start c).nextFree.nextFree
    let (s, _, m) := s.taRead (dA d) (16 * (n + z))
    if m && s.busErr then s.finish c St.KEY_GONE
    else
      let ps := s.taPieces (dA d) (16 * n)
      let good := (ps.filter fun p => !p.2).foldl (fun n p => n + p.1.length / 16) 0
      let k := (s.key (cipSlot d)).bytes
      let s := s.taWritePieces (dB d) (ps.map fun p => (cipBlocks (dCode d == 2) k p.1, p.2))
      let s := s.taWrite (mkTa (taHandle (dB d)) (taOff (dB d) + 16 * n)) (List.replicate (16 * z) 0) false
      s.finish c St.KEY_GONE 0 good m

/-- The message ends, if one holds the lock. -/
def State.dropLock (s : State) : State := if s.lockHeld then s.endMessage else s

/-- CIP_LOCK_IDLE (R350): LOCK_IDLE microseconds passed with no command of the holder. -/
def execCipLockIdle (s : State) : Res :=
  whileClocked s <| if s.lockHeld ∧ s.fld F.CIP_CTL.LOCK_IDLE ≠ 0 ∧ !((s.cmds 1).any fun c => c.core == s.holder) then
    .next (s.endMessage.raise F.CIP_STAT.LOCK_FORCED)
  else .next s

/-- A write of 1 to FREE (R350). -/
def State.lockFree (s : State) : State :=
  if s.lockHeld then
    let h := s.holder
    (s.cipEnd (fun c => c.core == h) St.NOT_READY).endMessage.raise F.CIP_STAT.LOCK_FORCED
  else s

/-- A write of 0 to RUN of CIP (R366). -/
def State.cipOff (s : State) : State :=
  ((s.cipEnd (fun _ => true) St.NOT_READY).dropLock).setFlag F.CIP_CTL.RUN false

end Sys2Proof.Machine
end

