-- ==== Sys2Proof/Machine/Sensors.lean ====
section
/-!
DEFINITION. AON memory, and the sensor command list and value descriptors in it that the sampler and MOT share (R451, R454,
R455).
-/
namespace Sys2Proof.Machine

/-- Bytes of AON memory (R451); what nothing has written reads as zero. -/
def State.aonBytes (s : State) (a n : Nat) : List Byte := s.aon.slice (fun _ => 0) a n

/-- Bytes stored in AON memory. -/
def State.aonStore (s : State) (a : Nat) (l : List Byte) : State := { s with aon := s.aon.store (fun _ => 0) a l }

/-- What a run of the command list has gathered: the raw record from byte 2 on, whether a command failed, the bytes sent. -/
structure ListRun where
  raw : List Byte := []
  busErr : Bool := false
  /-- an SPI transfer that asks for bytes got no response (R209) -/
  spiFail : Bool := false
  sent : List (List Byte) := []
  deriving DecidableEq, Repr

/-- One I2C or SPI command with its reply (R454). -/
def ListRun.transfer (r : ListRun) (cmd : List Byte) (reply : SensorReply) : ListRun :=
  let op := natAt cmd 0 1
  let rx := if op = 1 then 0 else min 8 (natAt cmd 3 1)
  let got := bytesAt reply.bytes 0 rx
  let bad := reply.nak || (op == 3 && rx != 0 && got.all fun b => b == 0xFF)
  { raw := r.raw ++ (if bad then List.replicate rx 0 else got)
    busErr := r.busErr || bad
    spiFail := r.spiFail || (op == 3 && bad)
    sent := r.sent ++ [bytesAt cmd 4 (min 4 (natAt cmd 2 1))] }

/-- The command list from a command on (R454), with the replies still to come. MOT runs the SPI transfers alone (R209): the
record keeps the places of the I2C reads, with zeros. -/
def runList (cmds : List (List Byte)) (spiOnly : Bool) (replies : List SensorReply) (r : ListRun) : ListRun :=
  match cmds with
  | [] => r
  | c :: cs =>
    let op := natAt c 0 1
    let go : ListRun :=
      match replies with
      | [] => runList cs spiOnly [] (r.transfer c ⟨true, []⟩)
      | x :: xs => runList cs spiOnly xs (r.transfer c x)
    match op with
    | 1 => if spiOnly then runList cs spiOnly replies r else go
    | 2 => if spiOnly then runList cs spiOnly replies { r with raw := r.raw ++ List.replicate (min 8 (natAt c 3 1)) 0 } else go
    | 3 => go
    | 4 => runList cs spiOnly replies r
    | _ => r

/-- The 32 commands of the list (R451). -/
def State.sensorList (s : State) : List (List Byte) := (List.range 32).map fun k => s.aonBytes (0x1800 + 8 * k) 8

/-- A value descriptor (R451, R455). -/
def State.valueDesc (s : State) (k : Nat) : List Byte := s.aonBytes (0x1900 + 16 * k) 16

/-- The value that a descriptor takes from a raw record of 16 bytes (R455); bytes beyond the record are zero. -/
def rawValue (desc raw : List Byte) : Int :=
  let o := natAt desc 1 1 % 16
  let b0 := bytesAt raw o 1
  let b1 := bytesAt raw (o + 1) 1
  let w (l : List Byte) : BitVec 16 := BitVec.ofNat 16 (leNat l)
  match natAt desc 1 1 / 16 % 8 with
  | 0 => (leNat b0 : Int)
  | 1 => (BitVec.ofNat 8 (leNat b0)).toInt
  | 2 => ((w (b0 ++ b1)).toNat : Int)
  | 3 => (w (b0 ++ b1)).toInt
  | 4 => ((w (b1 ++ b0)).toNat : Int)
  | 5 => (w (b1 ++ b0)).toInt
  | f => Config.sensorValue f raw

end Sys2Proof.Machine
end

