-- ==== Sys2Proof/Machine/Journal.lean ====
section
/-!
DEFINITION. The boot flash (R462), the boot journal with its mirror (R460, R461), the calibration record (R468), and the marks
of a boot step (R459).
-/
namespace Sys2Proof.Machine

/-! ## Boot flash (R462) -/

/-- What an unlisted byte of the boot flash reads as: an erased byte.
PRESUMED: log entry 7. -/
def flashDefault (_ : Nat) : Byte := 0xFF

/-- Bytes of the boot flash. -/
def State.flashBytes (s : State) (a n : Nat) : List Byte := s.boot.flash.slice flashDefault a n

/-- A little-endian number in the boot flash. -/
def State.flashNat (s : State) (a n : Nat) : Nat := leNat (s.flashBytes a n)

/-- Bytes stored in the boot flash. -/
def State.flashStore (s : State) (a : Nat) (l : List Byte) : State :=
  { s with boot := { s.boot with flash := s.boot.flash.store flashDefault a l } }

/-- A sector of 4,096 bytes erased.
PRESUMED: log entry 7. -/
def State.flashEraseSector (s : State) (a : Nat) : State :=
  { s with boot := { s.boot with flash := s.boot.flash.clear a 4096 } }

/-! ## The journal (R460) -/

/-- The 64-byte journal header. -/
def journalHeader (sticky number idx : Nat) : List Byte :=
  let b := leBytes 4 0x4C4E524A ++ leBytes 2 1 ++ leBytes 2 sticky ++ leBytes 4 number ++ leBytes 1 idx ++ leBytes 47 0
  b ++ leBytes 4 (crc32c b).toNat

/-- Whether 64 bytes pass the CRC-32C in their last four. -/
def crc60Ok (b : List Byte) : Bool := natAt b 60 4 == (crc32c (bytesAt b 0 60)).toNat

/-- 64 bytes with that CRC-32C put in. -/
def crc60Put (b : List Byte) : List Byte := bytesAt b 0 60 ++ leBytes 4 (crc32c (bytesAt b 0 60)).toNat

/-- AON address of a start record. -/
def recordAddr (i : Nat) : Nat := 64 + 64 * i

/-- The record of this start.
DEDUCED: log entry 75. -/
def State.startRecord (s : State) : List Byte := s.aonBytes (recordAddr s.boot.recIndex) 64

/-- The start number of this start; 0 before the first. -/
def State.startNo (s : State) : Nat := natAt s.startRecord 0 4

/-- The marks of this start as `BOOT_STAT` shows them (R474). -/
def State.showRecord (s : State) (r : List Byte) : State :=
  let s := (s.setFld F.BOOT_STAT.BEGUN (natAt r 6 2)).setFld F.BOOT_STAT.DONE (natAt r 8 2)
  let s := (s.setFlag F.BOOT_STAT.COMPLETE (natAt r 5 1 % 2 == 1)).setFlag F.BOOT_STAT.ROM_ONLY (natAt r 5 1 / 2 % 2 == 1)
  s.setFlag F.BOOT_STAT.ALT_SLOT (natAt r 5 1 / 4 % 2 == 1)

/-- A record appended to the mirror; the oldest sector is erased when the area is full (R460, R462). -/
def State.mirrorAppend (s : State) (r : List Byte) : State :=
  let n := s.boot.mirrorNext
  let s := if n % 64 = 0 then s.flashEraseSector (64 * n) else s
  let s := s.flashStore (64 * n) r
  { s with boot := { s.boot with mirrorNext := (n + 1) % 4096 } }

/-- This start's record written: to AON memory, then to the mirror (R460). -/
def State.putRecord (s : State) (b : List Byte) : State :=
  let r := crc60Put b
  ((s.aonStore (recordAddr s.boot.recIndex) r).mirrorAppend r).showRecord r

/-- A field of this start's record written. -/
def State.setRecord (s : State) (off n v : Nat) : State := s.putRecord (patch s.startRecord off (leBytes n v))

/-- A bit of a two-byte field of this start's record set. -/
def State.markRecord (s : State) (off k : Nat) : State := s.setRecord off 2 ((natAt s.startRecord off 2).lor (2 ^ k))

/-- Step Sn marked done. -/
def State.markDone (s : State) (n : Nat) : State := s.markRecord 8 n

/-- The detail of step Sn. -/
def State.stepDetail (s : State) (n : Nat) : Nat := natAt s.startRecord (16 + 4 * n) 4

/-- The detail of step Sn written. -/
def State.setDetail (s : State) (n v : Nat) : State := s.setRecord (16 + 4 * n) 4 v

/-- Whether the alternate of step Sn is in force (R461). -/
def State.sticky (s : State) (n : Nat) : Bool := (s.fld F.BOOT_ALT.STICKY).testBit n

/-- Whether the alternate of step Sn was applied in this start. -/
def State.altApplied (s : State) (n : Nat) : Bool := (natAt s.startRecord 12 2).testBit n

/-- Step Sn marked begun, and its alternate applied where STICKY asks for it (R460, R461). -/
def State.markBegun (s : State) (n : Nat) : State :=
  let s := s.markRecord 6 n
  if s.sticky n then s.markRecord 12 n else s

/-- Whether step Sn has been marked begun, and done. -/
def State.stepBegun (s : State) (n : Nat) : Bool := (s.fld F.BOOT_STAT.BEGUN).testBit n
/-- Whether step Sn has been marked done. -/
def State.stepDone (s : State) (n : Nat) : Bool := (s.fld F.BOOT_STAT.DONE).testBit n
/-- Whether step Sn is in progress: begun and not done (R459). -/
def State.inStep (s : State) (n : Nat) : Bool := s.stepBegun n && !s.stepDone n

/-- Whether RDC, SRV, MOT and WRC take no writes: S6 or S7 runs (R467). -/
def State.afeHeld (s : State) : Bool := s.inStep 6 || s.inStep 7

/-- What a write to a register of such a block does: while S6 or S7 runs it sets that block's STOPPED_ONLY and nothing else. -/
def State.unlessHeld (s : State) (stopped : Field) (t : State) : State := if s.afeHeld then s.raise stopped else t

/-! ## The calibration record (R468) -/

/-- Whether the copy at an address is valid: both its CRC-32Cs pass. -/
def State.calValid (s : State) (a : Nat) : Bool :=
  s.flashNat a 4 == 0x524C4143 && s.flashNat (a + 4) 2 == 1 &&
    s.flashNat (a + 1020) 4 == (crc32c (s.flashBytes a 1020)).toNat &&
    s.flashNat (a + 136320) 4 == (crc32c (s.flashBytes (a + 1024) 135296)).toNat

/-- The address of the copy in use: the valid one with the higher sequence. -/
def State.calCopy (s : State) : Option Nat :=
  let a := 0x40000
  let b := 0x80000
  match s.calValid a, s.calValid b with
  | true, true => some (if s.flashNat (a + 8) 4 < s.flashNat (b + 8) 4 then b else a)
  | true, false => some a
  | false, true => some b
  | false, false => none

/-- A word loaded into a register, as far as the register has fields. -/
def State.loadReg (s : State) (a v : Nat) : State :=
  match regAt a with
  | some r => s.setReg a (BitVec.ofNat 32 v &&& r.fields.foldl (fun m f => m ||| f.mask) 0)
  | none => s.setReg a (BitVec.ofNat 32 v)

/-- A motion law loaded: 512 step words, `MOT_STGn`, and the stage elements (R468).
DEDUCED: log entry 68. -/
def State.loadLaw (s : State) (b : List Byte) : State :=
  let s := s.each (List.range 512) fun s k => s.loadReg (0xF02000 + 4 * k) (natAt b (4 * k) 4)
  let s := s.each (List.range 32) fun s n => s.loadReg (F.MOT_STG.LEN.addr n) (natAt b (2048 + 4 * n) 4)
  s.each (List.range 512) fun s k => s.loadReg (0xF01000 + 4 * k) (natAt b (2176 + 4 * k) 2)

end Sys2Proof.Machine
end

