-- ==== Sys2Proof/Machine/Keccak.lean ====
section
/-!
DEFINITION. SHAKE256, which R313, R463, R465 and R469 name: a sponge of 136-byte blocks over 1,600 bits in 25 words. Word n stands for
row n div 5 and column n mod 5. What the permutation does comes from its public standard, which those rules use by name (PRESUMED, log
entry 25): its round constants are drawn here from their shift register, and its rotations from the walk over the words, not listed.
-/
namespace Sys2Proof.Machine

/-- The shift register of the round constants, x^8 + x^6 + x^5 + x^4 + 1, one step on. -/
def Keccak.shift (r : Nat) : Nat := if 128 ≤ r then (2 * r % 256).xor 0x71 else 2 * r

/-- The constant of a round from the shift register as the round finds it: its next seven output bits stand at bits 0, 1, 3, 7, 15, 31
and 63; and the register after them. -/
def Keccak.drawn (r : Nat) : W64 × Nat :=
  (List.range 7).foldl (fun e j =>
    (if e.2 % 2 = 1 then e.1 ||| BitVec.ofNat 64 (2 ^ (2 ^ j - 1)) else e.1, shift e.2)) (0, r)

/-- The walk of the standard from word 1, `k` more words of it, each moved to the place after it: the word met at step t is rotated by
the t-th triangular number. -/
def Keccak.walk (s : List W64) : (k t n : Nat) → W64 → List W64 → List W64
  | 0, _, _, _, d => d
  | k + 1, t, n, v, d =>
    let m := n / 5 + 5 * ((2 * (n % 5) + 3 * (n / 5)) % 5)
    walk s k (t + 1) m (s.getD m 0) (d.set m (v.rotateLeft (t * (t + 1) / 2 % 64)))

/-- Column parities spread to the columns beside them. -/
def Keccak.spread (s : List W64) : List W64 :=
  let parity (x : Nat) : W64 := (List.range 5).foldl (fun v y => v ^^^ s.getD (x % 5 + 5 * y) 0) 0
  let add := (List.range 5).map fun x => parity (x + 4) ^^^ (parity (x + 1)).rotateLeft 1
  s.mapIdx fun n v => v ^^^ add.getD (n % 5) 0

/-- Within each row, a word takes up the next but one where the next has a zero. -/
def Keccak.mix (s : List W64) : List W64 :=
  s.mapIdx fun n v =>
    let at' (k : Nat) : W64 := s.getD (n / 5 * 5 + (n + k) % 5) 0
    v ^^^ (at' 2 &&& (at' 1 ^^^ -1))

/-- `k` rounds, with the shift register of their constants. -/
def Keccak.rounds : Nat → Nat → List W64 → List W64
  | 0, _, s => s
  | k + 1, r, s =>
    let (v, r) := drawn r
    let p := spread s
    let m := mix (walk p 24 1 1 (p.getD 1 0) p)
    rounds k r (m.set 0 (m.getD 0 0 ^^^ v))

/-- The sponge after `k` blocks of a padded message. -/
def Keccak.sponge : Nat → List Byte → List W64 → List W64
  | 0, _, s => s
  | k + 1, l, s => sponge k (l.drop 136) (rounds 24 1 (s.mapIdx fun n v => if n < 17 then v ^^^ BitVec.ofNat 64 (natAt l (8 * n) 8) else v))

/-- `n` bytes of SHAKE256, `n` at most 136: the message is filled up to whole blocks, 0x1F after it and 0x80 in the last byte. -/
def shake256 (l : List Byte) (n : Nat) : List Byte :=
  let k := l.length / 136 + 1
  let p := bytesAt (l ++ [0x1F]) 0 (136 * k)
  let p := p.set (136 * k - 1) (p.getD (136 * k - 1) 0 ^^^ 0x80)
  ((Keccak.sponge k p (List.replicate 25 0)).flatMap fun w => leBytes 8 w.toNat).take n

end Sys2Proof.Machine
end

