-- ==== Sys2Proof/Machine/Keys.lean ====
section
/-!
DEFINITION. The key store (R358 to R365): IMPORT, ERASE, ATTEST (R470) and alarms.
-/
namespace Sys2Proof.Machine

/-- The state with a key slot replaced. -/
def State.setKey (s : State) (n : Nat) (k : KeySlot) : State := { s with keys := s.keys.set (fun _ => {}) n k }

/-- The key slot that a plaintext of R359 spells. -/
def keyOfPlain (p : List Byte) : KeySlot :=
  { valid := true, key := BitVec.ofNat 256 (leNat (p.drop 16)), ksize := natAt p 8 1,
    enc := (natAt p 9 1).testBit 0, dec := (natAt p 9 1).testBit 1, tkid := BitVec.ofNat 64 (natAt p 0 8) }

/-- Check 6 of R360 on the plaintext for a slot. -/
def State.plainOk (s : State) (slot : Nat) (p : List Byte) : Bool :=
  let t := BitVec.ofNat 64 (natAt p 0 8)
  natAt p 10 6 == 0 && p.length == 32 + 8 * natAt p 8 1 && decide (natAt p 8 1 < 3) &&
    (if slot = 65 then t == 0 && natAt p 8 1 == 2 && natAt p 9 1 == 0
     else t != 0 && decide (natAt p 9 1 < 4) &&
       !((List.range 64).any fun n => n != slot && (s.key n).valid && (s.key n).tkid == t))

/-- Checks 3 to 7 of R360 on an unmarked blob for a slot, in order: the slot takes its key, or what failed is counted; and the
status. -/
def State.importKey (s : State) (slot : Nat) (blob : List Byte) : State × W16 :=
  let w := s.key (if slot = 65 then 64 else 65)
  if s.flag F.KEY_ALARM.ALARM then (s, St.NOT_READY)
  else if !w.valid then (s, St.KEY_EMPTY)
  else match Aes.unwrap w.bytes blob with
    | none => (s.bump F.KEY_CNT.UNWRAP_FAIL, St.TAG_FAIL)
    | some p =>
      if !s.plainOk slot p then (s, St.BAD_PARAM)
      else if s.slotHeld slot then (s.bump F.KEY_CNT.BUSY_REFUSED, St.KEY_BUSY)
      else ((s.setKey slot (keyOfPlain p)).bump F.KEY_CNT.IMPORTS, St.OK)

/-- Whether IMPORT may name a slot, and a blob length (R359, R360). -/
def importShapeOk (slot n : Nat) : Bool :=
  (decide (slot < 64) || slot == 65) && (n == 40 || n == 48 || n == 56)

/-- The checks of R322 and R264 on the blob of an IMPORT.
DEDUCED: log entry 10. -/
def State.blobCheck (s : State) (c : Cmd) (n : Nat) : Option W16 :=
  firstBad [s.checkRange (taHandle (dA c.desc)) (taOff (dA c.desc)) n, if c.badOwner then some St.BAD_OWNER else none,
    s.engCheck c (dA c.desc) n]

/-- IMPORT (R359 to R361). -/
def execKeyImport (i : Nat) (s : State) : Res :=
  match s.ready 7 i 1 with
  | none => .next s
  | some c =>
    let s := s.start c
    let slot := dArg c.desc % 128
    let n := dC c.desc
    if !importShapeOk slot n then .next (s.finish c St.BAD_PARAM)
    else match s.blobCheck c n with
      | some e => .next (s.finish c e)
      | none =>
        let (s, b, m) := s.taRead (dA c.desc) n
        let (s, st) := if m then (s, St.POISON) else s.importKey slot b
        .next (s.finish c st)

/-- ERASE (R361). -/
def execErase (i : Nat) (s : State) : Res :=
  runCmd 7 i 2 s fun c s =>
    let slot := dArg c.desc % 128
    if ¬(slot < 64 ∨ slot = 65) then s.finish c St.BAD_PARAM
    else if s.slotHeld slot then (s.bump F.KEY_CNT.BUSY_REFUSED).finish c St.KEY_BUSY
    else (s.setKey slot {}).finish c St.OK

/-! ## Attestation (R470) -/

/-- `BOOT_PART` as fused (R474). -/
def bootPart : Nat := 0x6400 * 2 ^ 16 + Config.sirev.toNat * 2 ^ 8 + Config.grade.toNat * 2 ^ 4

/-- The boot floor (R466): the fused counter, raised by starts since. -/
def State.bootFloor (s : State) : Nat := max Config.fusedFloor.toNat s.boot.floorRaised.toNat

/-- Bytes 0 to 443 of the attestation report. -/
def State.attestBody (s : State) (nonce : List Byte) : List Byte :=
  let al := s.reg (F.KEY_ALARM.ALARM.addr 0)
  leBytes 4 0x54535441 ++ leBytes 2 1 ++ leBytes 2 nonce.length ++ leBytes 8 Config.serial.toNat ++ leBytes 4 bootPart ++
    leBytes 4 s.startNo ++ leBytes 4 s.boot.imageVer.toNat ++ leBytes 4 s.boot.imageSec.toNat ++ leBytes 4 s.bootFloor ++
    leBytes 4 (s.fld F.BOOT_PFLOOR.PFLOOR) ++ leBytes 2 (s.fld F.BOOT_ALT.STICKY) ++
    leBytes 1 (al.toNat % 32 + 128 * s.fld F.KEY_ALARM.ALARM) ++
    leBytes 1 (s.fld F.KEY_CTL.SECURE + 2 * s.fld F.HST_CTL.DBG_EN + 4 * s.fld F.BOOT_STAT.ALT_SLOT + 8 * s.boot.ownerSigned.toNat) ++
    leBytes 4 0 ++ bytesAt s.boot.imageDigest 0 64 ++
    ((List.range 16).flatMap fun n =>
      let c := s.core n
      if c.imgOk then leBytes 8 c.imageId.toNat ++ leBytes 4 c.imageVer.toNat ++ leBytes 4 c.securityVer.toNat
      else leBytes 16 0) ++
    bytesAt nonce 0 64 ++ leBytes 8 s.aonMs ++ leBytes 2 1280 ++ leBytes 2 0

/-- ATTEST (R470). The report capacity is what its buffer holds from the report address on.
DEDUCED: log entry 16. -/
def execAttest (i : Nat) (s : State) : Res :=
  runCmd 7 i 3 s fun c s =>
    let n := dC c.desc
    let a := dA c.desc
    let r := dB c.desc
    if n < 16 ∨ 64 < n then s.finish c St.BAD_PARAM
    else match firstBad [s.engCheck c a n, s.engCheckW c r 0] with
      | some e => s.finish c e
      | none =>
        if classSize (hClass (taHandle r)) < taOff r + 1724 then s.finish c St.BAD_PARAM
        else if !(s.fld F.BOOT_STAT.DONE).testBit 3 then s.finish c St.NOT_READY
        else
          let (s, nonce, m) := s.taRead a n
          if m && s.busErr then s.finish c St.POISON
          else
            let body := s.attestBody nonce
            (s.taWrite r (body ++ bytesAt (Config.falconSign body) 0 1280) m).finish c (if m then St.POISON else St.OK) 0 1724 m

/-! ## Alarms (R362 to R365) -/

/-- The enable bit of an alarm source. -/
def sourceEnable : AlarmSource → Field
  | .voltage => F.KEY_CTL.VOLT_EN
  | .clock => F.KEY_CTL.CLK_EN
  | .temperature => F.KEY_CTL.TEMP_EN
  | .tamper => F.KEY_CTL.TAMPER_EN
  | .secureViolation => F.KEY_CTL.SECURE

/-- The cause bit of an alarm source. -/
def sourceCause : AlarmSource → Field
  | .voltage => F.KEY_ALARM.VOLT
  | .clock => F.KEY_ALARM.CLK
  | .temperature => F.KEY_ALARM.TEMP
  | .tamper => F.KEY_ALARM.TAMPER
  | .secureViolation => F.KEY_ALARM.SECV

/-- Whether a source is enabled: by its bit, or by SECURE (R362). -/
def State.sourceOn (s : State) (a : AlarmSource) : Bool := s.flag (sourceEnable a) || s.flag F.KEY_CTL.SECURE

/-- The IMPORT in progress when the alarm fires ends KEY_GONE (R364): the first command of KEY's queue.
DEDUCED: log entry 9. -/
def State.importStruck (s : State) : State :=
  match s.cmds 7 with
  | [] => s
  | c :: _ => if descOk 7 c.desc && dCode c.desc == 1 && s.fenceOpen c then (s.start c).finish c St.KEY_GONE else s

/-- The erase of the first alarm since a start (R363, R364): ALARM, every key slot zero, every CIP command accepted and not
completed and an IMPORT in progress end KEY_GONE, the lock freed, and the umpire told. -/
def State.alarmErase (s : State) : State :=
  let s := s.raise F.KEY_ALARM.ALARM
  let s := if (s.cmds 1).isEmpty then s else s.raise F.CIP_STAT.KEY_GONE_SEEN
  let s := (s.cipStruck.cipEnd (fun _ => true) St.KEY_GONE).dropLock.importStruck
  let s := { s with keys := [] }
  s.report 0x0A01 ((s.reg (F.KEY_ALARM.ALARM.addr 0)).toNat % 32)

/-- Sources that hold: those enabled set their cause bits, and fire the alarm unless one has fired since the start (R362,
R365). -/
def State.alarm (s : State) (l : List AlarmSource) : State :=
  let on := l.filter s.sourceOn
  if on.isEmpty then s
  else
    let s := s.each on fun s a => s.raise (sourceCause a)
    if s.flag F.KEY_ALARM.ALARM then s else s.alarmErase

/-- KEY_ALARM (R362 to R364): a source holds. -/
def execKeyAlarm (src : AlarmSource) (s : State) : Res := .next (s.alarm [src])

end Sys2Proof.Machine
end

