-- ==== Sys2Proof/Machine/PciSpace.lean ====
section
/-!
DEFINITION. Configuration space (R367, R369, R373, R382, R385). The spec lists its options, BARs and capabilities and gives no
layout: where each dword stands, and the encoding of its fields, is PRESUMED (PRESUMED, log entry 27) to be that of a PCIe 5.0
endpoint. A dword that neither the spec nor a listed option fixes is a constant of the implementation.
-/
namespace Sys2Proof.Machine

/-! ## Layout -/

/-- The value that a dword of a function's configuration space has at reset: header and BARs, PCI Express (0x40), power management
(0x80), MSI-X (0x90), AER (0x100), ARI (0x150), SR-IOV (0x160), LTR (0x1A0), L1 substates (0x1B0), equalisation at 8.0, 16.0 and
32.0 GT/s (0x1C0, 0x1F0, 0x220) and lane margining (0x250). Function 0 alone has those from SR-IOV on; a virtual function's BARs
are those of the SR-IOV capability.
PRESUMED: log entry 27. -/
def cfgReset (f off : Nat) : W32 :=
  let pf (v : W32) : W32 := if f = 0 then v else 0
  match off with
  | 0x04 => 0x00100000
  | 0x10 => pf 0x00000004
  | 0x18 => pf 0x0000000C
  | 0x20 => pf 0x00000004
  | 0x34 => 0x00000040
  | 0x40 => 0x00028010
  | 0x44 => 0x10008022
  | 0x48 => 0x00002810
  | 0x4C => 0x00440885
  | 0x64 => 0x00030810
  | 0x6C => 0x0000003E
  | 0x70 => 0x00000005
  | 0x80 => 0x80039001
  | 0x90 => 0x00070011
  | 0x94 => if f = 0 then 0x00008004 else 0x00002000
  | 0x98 => if f = 0 then 0x0000C004 else 0x00003000
  | 0x100 => 0x15020001
  | 0x10C => 0x00462030
  | 0x114 => 0x00002000
  | 0x118 => 0x000000A0
  | 0x150 => if f = 0 then 0x1601000E else 0x0001000E
  | 0x160 => pf 0x1A010010
  | 0x16C => pf 0x000F000F
  | 0x174 => pf 0x00010001
  | 0x180 => pf 0x00000001
  | 0x184 => pf 0x00000004
  | 0x1A0 => pf 0x1B010018
  | 0x1B0 => pf 0x1C01001E
  | 0x1B4 => pf 0x0000001F
  | 0x1C0 => pf 0x1F010019
  | 0x1F0 => pf 0x22010026
  | 0x220 => pf 0x2501002A
  | 0x250 => pf 0x00010027
  | _ => 0

/-- Dwords that the implementation fixes: identifiers, class code and revision, and the lane registers of the equalisation and
margining capabilities. -/
def cfgOpen (f off : Nat) : Bool :=
  off == 0x00 || off == 0x08 || off == 0x2C ||
    (f == 0 && (off == 0x178 || off == 0x17C || (decide (0x1C4 ≤ off) && decide (off < 0x1F0)) ||
      (decide (0x1F4 ≤ off) && decide (off < 0x220)) || (decide (0x224 ≤ off) && decide (off < 0x250)) ||
      (decide (0x254 ≤ off) && decide (off < 0x280))))

/-- Bits of a dword of configuration space that software writes. A BAR takes the address bits above its size (R369): 64 MiB, 256 MiB
and 64 KiB, and 16 KiB for a virtual function.
PRESUMED: log entry 27. -/
def cfgMask (f off : Nat) : W32 :=
  let pf (v : W32) : W32 := if f = 0 then v else 0
  match off with
  | 0x04 => 0x00000406
  | 0x10 => pf 0xFC000000
  | 0x14 => pf 0xFFFFFFFF
  | 0x18 => pf 0xF0000000
  | 0x1C => pf 0xFFFFFFFF
  | 0x20 => pf 0xFFFF0000
  | 0x24 => pf 0xFFFFFFFF
  | 0x48 => 0x000079FF
  | 0x50 => pf 0x000001CA
  | 0x68 => pf 0x00001410
  | 0x70 => pf 0x0000000F
  | 0x84 => 0x00000103
  | 0x90 => 0xC0000000
  | 0x108 => 0xFFFFFFFF
  | 0x10C => 0xFFFFFFFF
  | 0x114 => 0xFFFFFFFF
  | 0x118 => 0x00000140
  | 0x168 => pf 0x00000019
  | 0x170 => pf 0x0000FFFF
  | 0x180 => pf 0xFFFFFFFF
  | 0x184 => pf 0xFFFFC000
  | 0x188 => pf 0xFFFFFFFF
  | 0x1A4 => pf 0x1FFF1FFF
  | 0x1B8 => pf 0xE3FFFF0F
  | 0x1BC => pf 0x000000FB
  | _ => 0

/-- Bits that a write of 1 clears: the AER status registers, and PME status. -/
def cfgW1c (off : Nat) : W32 :=
  match off with
  | 0x84 => 0x00008000
  | 0x104 => 0xFFFFFFFF
  | 0x110 => 0xFFFFFFFF
  | _ => 0

/-- Fields that keep their value because the written one is none of those listed: a payload above 512 bytes, a read request above
4,096, a power state other than D0 and D3hot (R367), more than 15 virtual functions (R373). -/
def cfgKept (off : Nat) (v : W32) : W32 :=
  match off with
  | 0x48 => (if 2 < v.toNat / 32 % 8 then 0xE0 else 0) ||| (if 5 < v.toNat / 4096 % 8 then 0x7000 else 0)
  | 0x84 => if v.toNat % 4 = 1 ∨ v.toNat % 4 = 2 then 3 else 0
  | 0x170 => if 15 < v.toNat % 65536 then 0xFFFF else 0
  | _ => 0

/-! ## What the rules read of it -/

/-- What an unlisted dword of the functions' configuration space holds. -/
def cfgDefault (k : Nat) : W32 := cfgReset (k / 4096) (k % 4096)

/-- A dword of a function's configuration space. -/
def State.cfg (s : State) (f off : Nat) : W32 := s.hst.config.get cfgDefault (4096 * f + off)

/-- A dword of a function's configuration space given a value. -/
def State.setCfg (s : State) (f off : Nat) (v : W32) : State :=
  { s with hst := { s.hst with config := s.hst.config.set cfgDefault (4096 * f + off) v } }

/-- Bus Master Enable of a function. -/
def State.busMaster (s : State) (f : Nat) : Bool := (s.cfg f 0x04).getLsbD 2
/-- Whether a function has relaxed ordering enabled. -/
def State.relaxed (s : State) (f : Nat) : Bool := (s.cfg f 0x48).getLsbD 4
/-- Max payload size and max read request size of a function (R367, R382). -/
def State.maxPayload (s : State) (f : Nat) : Nat := 128 * 2 ^ ((s.cfg f 0x48).toNat / 32 % 8)
def State.maxRead (s : State) (f : Nat) : Nat := 128 * 2 ^ ((s.cfg f 0x48).toNat / 4096 % 8)
/-- VF Enable and NumVFs of the physical function. -/
def State.numVfs (s : State) : Nat := if (s.cfg 0 0x168).getLsbD 0 then (s.cfg 0 0x170).toNat % 65536 else 0

/-- ACTIVE of a function: function 0 after link-up, a virtual function while VF Enable is 1 and its number is at most NumVFs. -/
def State.fnActive (s : State) (f : Nat) : Bool := s.hst.pcieUp && (f == 0 || decide (f ≤ s.numVfs))

/-- A dword of configuration space as a read finds it; Link Status shows the rate and width in use. -/
def State.cfgRead (s : State) (f off : Nat) : W32 :=
  if cfgOpen f off then Config.cfgWord f off
  else if f = 0 ∧ off = 0x50 then
    s.cfg f off ||| BitVec.ofNat 32 (s.fld F.HST_STAT.SPEED * 2 ^ 16 + s.fld F.HST_STAT.WIDTH * 2 ^ 20)
  else s.cfg f off

/-- AER's log of an uncorrectable error (R382): its status bit of the PCIe standard. -/
def State.aerLog (s : State) (f bit : Nat) : State := s.setCfg f 0x104 (s.cfg f 0x104 ||| BitVec.ofNat 32 (2 ^ bit))

/-! ## Transfers (R382) -/

/-- A transfer of `n` bytes from an address in pieces of at most `max` bytes, of which none crosses a 4 KiB boundary: address and length. -/
def tlpPieces (max : Nat) : Nat → Nat → Nat → List (Nat × Nat)
  | 0, _, _ => []
  | k + 1, a, n =>
    if n = 0 then []
    else
      let m := min n (min max (4096 - a % 4096))
      (a, m) :: tlpPieces max k (a + m) (n - m)

/-- The pieces of a transfer, all of them. -/
def piecesOf (max a n : Nat) : List (Nat × Nat) := tlpPieces max (n / max + n / 4096 + 3) a n

/-- Bytes written to host memory, split at the max payload size. -/
def State.hostWrites (s : State) (f a : Nat) (l : List Byte) : State :=
  s.each (piecesOf (s.maxPayload f) a l.length) fun s e => s.emit (.hostWrite f e.1 (bytesAt l (e.1 - a) e.2) (s.relaxed f))

/-- Read requests to host memory, split at the max read request size. -/
def State.hostReads (s : State) (f a n : Nat) : State :=
  s.each (piecesOf (s.maxRead f) a n) fun s e => s.emit (.hostRead f e.1 e.2)

/-! ## MSI-X (R369, R381) -/

/-- What an unlisted dword of an MSI-X table reads as: its vector masked. -/
def msixDefault (k : Nat) : W32 := if k % 16 = 12 then 1 else 0

/-- Whether a vector of a function sends: MSI-X enabled, neither the function nor the vector masked. -/
def State.msixSends (s : State) (f v : Nat) : Bool :=
  (s.cfg f 0x90).getLsbD 31 && !(s.cfg f 0x90).getLsbD 30 && !(s.hst.msix.get msixDefault (4096 * f + 16 * v + 12)).getLsbD 0

/-- A message sent, or while its vector may not send left pending. -/
def State.msixSend (s : State) (f v : Nat) : State :=
  if s.msixSends f v then s.emit (.msix f v)
  else if s.hst.pba.contains (8 * f + v) then s
  else { s with hst := { s.hst with pba := s.hst.pba ++ [8 * f + v] } }

/-- The pending messages of a function whose vectors may send now. -/
def State.msixFlush (s : State) (f : Nat) : State :=
  s.each (List.range 8) fun s v =>
    if s.hst.pba.contains (8 * f + v) && s.msixSends f v then
      { s with hst := { s.hst with pba := s.hst.pba.erase (8 * f + v) } }.emit (.msix f v)
    else s

/-- A dword of a function's pending bit array, one bit for each of its 8 vectors. -/
def State.pbaWord (s : State) (f off : Nat) : W32 :=
  if off ≠ 0 then 0
  else BitVec.ofNat 32 ((List.range 8).foldl (fun n v => if s.hst.pba.contains (8 * f + v) then n + 2 ^ v else n) 0)

end Sys2Proof.Machine
end

