-- ==== Sys2Proof/Machine/Host.lean ====
section
/-!
DEFINITION. The host port (R367 to R387, R500): functions, queue pairs and doorbells, work batches, completion entries and
MSI-X messages, DMA, resets, and the debug aperture.
-/
namespace Sys2Proof
open Machine (natAt bytesAt)

/-! ## The fields of a work item (R377) -/

def WorkItem.opcode (w : WorkItem) : Nat := natAt w.bytes 0 1
def WorkItem.cid (w : WorkItem) : W16 := BitVec.ofNat 16 (natAt w.bytes 2 2)
def WorkItem.stream (w : WorkItem) : W32 := BitVec.ofNat 32 (natAt w.bytes 4 4)
def WorkItem.addr (w : WorkItem) : W64 := BitVec.ofNat 64 (natAt w.bytes 8 8)
def WorkItem.length (w : WorkItem) : W32 := BitVec.ofNat 32 (natAt w.bytes 16 4)
def WorkItem.crc (w : WorkItem) : W32 := BitVec.ofNat 32 (natAt w.bytes 20 4)
def WorkItem.seq (w : WorkItem) : W64 := BitVec.ofNat 64 (natAt w.bytes 24 8)
def WorkItem.params (w : WorkItem) : List Byte := bytesAt w.bytes 32 32

end Sys2Proof

namespace Sys2Proof.Machine

/-! ## Queue pairs (R374, R375) -/

/-- The number of a pair in the register file and in `Hst.pairs`. -/
def pairNo (f p : Nat) : Nat := 16 * f + p
/-- A queue pair's pointers. -/
def State.pair (s : State) (f p : Nat) : QPair := s.hst.pairs.get (fun _ => {}) (pairNo f p)
/-- The state with a queue pair's pointers replaced. -/
def State.setPair (s : State) (f p : Nat) (x : QPair) : State :=
  { s with hst := { s.hst with pairs := s.hst.pairs.set (fun _ => {}) (pairNo f p) x } }
/-- Whether a pair is enabled. -/
def State.pairEn (s : State) (f p : Nat) : Bool := s.flag F.HST_QCFG.EN (pairNo f p)
/-- Entries of a pair's SQ. -/
def State.sqDepth (s : State) (f p : Nat) : Nat := 2 ^ s.fld F.HST_QCFG.SQ_LOG (pairNo f p)
/-- Entries of a pair's CQ. -/
def State.cqDepth (s : State) (f p : Nat) : Nat := 2 ^ s.fld F.HST_QCFG.CQ_LOG (pairNo f p)
/-- Work items posted to a pair and not yet fetched. -/
def State.sqItems (s : State) (f p : Nat) : Nat :=
  ((s.pair f p).sqTail + s.sqDepth f p - (s.pair f p).sqHead) % s.sqDepth f p
/-- Entries a pair's CQ holds. -/
def State.cqItems (s : State) (f p : Nat) : Nat :=
  ((s.pair f p).cqTail + s.cqDepth f p - (s.pair f p).cqHead) % s.cqDepth f p
/-- Whether `n` entries may be written to a pair's CQ (R380). -/
def State.cqRoom (s : State) (f p n : Nat) : Bool := decide (s.cqItems f p + n ≤ s.cqDepth f p - 1)
/-- Base address of a pair's CQ. -/
def State.cqBase (s : State) (f p : Nat) : Nat :=
  s.fld F.HST_CQB_LO.ADDR (pairNo f p) * 4096 + s.fld F.HST_CQB_HI.ADDR (pairNo f p) * 2 ^ 32

/-- Whether an engine command is a COMPLETE for a pair. -/
def isComplete (f p : Nat) (c : Cmd) : Bool := dCode c.desc == 3 && dArg c.desc % 16 == f && dC c.desc == p

/-- A write of 1 to EN of a pair (R374). An enabled pair stays as it is. -/
def State.pairOn (s : State) (f p : Nat) : State :=
  let k := pairNo f p
  let ok (n : Nat) : Bool := decide (4 ≤ n) && decide (n ≤ 16)
  if s.pairEn f p then s
  else if ok (s.fld F.HST_QCFG.SQ_LOG k) && ok (s.fld F.HST_QCFG.CQ_LOG k) then
    (s.setPair f p {}).setFlag F.HST_QCFG.EN true k
  else s.raise F.HST_STAT.CFG_REFUSED

/-- A write of 0 to EN of a pair: where its CQ is full, the COMPLETEs that wait for it end BAD_PARAM (R380). -/
def State.pairOff (s : State) (f p : Nat) : State :=
  let s := if s.pairEn f p && !s.cqRoom f p 1 then
      s.each ((s.cmds 4).filter (isComplete f p)) fun s c => (s.start c).finish c St.BAD_PARAM
    else s
  s.setFlag F.HST_QCFG.EN false (pairNo f p)

/-- An SQ tail doorbell (R375). -/
def State.sqBell (s : State) (f p v : Nat) : State :=
  let q := s.pair f p
  let d := s.sqDepth f p
  if !s.pairEn f p || decide (d ≤ v) || decide (d ≤ (v + d - q.sqTail) % d + s.sqItems f p) then s.raise F.HST_STAT.DB_ERR
  else s.setPair f p { q with sqTail := v }

/-- A CQ head doorbell (R375). -/
def State.cqBell (s : State) (f p v : Nat) : State :=
  let q := s.pair f p
  let d := s.cqDepth f p
  if !s.pairEn f p || decide (d ≤ v) || decide (s.cqItems f p < (v + d - q.cqHead) % d) then s.raise F.HST_STAT.DB_ERR
  else s.setPair f p { q with cqHead := v }

/-! ## Completion entries and messages (R380, R381) -/

/-- An entry written at the CQ tail: the SQ head of the SQ it names and the phase put in, then the tail advanced. -/
def State.cqWrite (s : State) (f p : Nat) (b : List Byte) : State :=
  let q := s.pair f p
  let head := (s.pair f (natAt b 6 2 % 16)).sqHead
  let last := BitVec.ofNat 8 (natAt b 15 1 / 2 * 2 + q.phase.toNat)
  let s := s.emit (.hostWrite f (s.cqBase f p + 16 * q.cqTail) (bytesAt b 0 4 ++ leBytes 2 head ++ bytesAt b 6 9 ++ [last]) false)
  let t := (q.cqTail + 1) % s.cqDepth f p
  s.setPair f p { q with cqTail := t, phase := if t = 0 then !q.phase else q.phase, unsignalled := q.unsignalled + 1 }

/-- The 16 bytes of an entry (R380), its SQ head and phase still to be put in. -/
def entryBytes (result sq cid status detail : Nat) : List Byte :=
  leBytes 4 result ++ leBytes 2 0 ++ leBytes 2 sq ++ leBytes 2 cid ++ leBytes 2 status ++ leBytes 2 detail ++ leBytes 2 0

/-- Whether an engine command is a DELIVER for a function. -/
def isDeliver (f : Nat) (c : Cmd) : Bool := c.target == 4 && dCode c.desc == 2 && dArg c.desc % 16 == f

/-- Whether an entry for a pair, accepted when `seq` was the next command's number, waits (R380): for room in its CQ, behind an earlier
COMPLETE for that CQ, or for an earlier DELIVER of its function. -/
def State.entryWaits (s : State) (f p seq : Nat) : Bool :=
  !s.cqRoom f p 1 || (s.cmds 4).any (fun x => isComplete f p x && decide (x.seq < seq)) ||
    (s.cmds 4).any (fun x => isDeliver f x && decide (x.seq < seq)) || s.held.any fun h => isDeliver f h.cmd && decide (h.cmd.seq < seq)

/-- The completion entries that the standard program set has due, oldest first, in the order of R380 (R384); one for a pair that is no
longer there is dropped. -/
def State.postDue (s : State) : List Waiting → State
  | [] => s
  | w :: ws =>
    let drop (s : State) : State := { s with hst := { s.hst with waiting := s.hst.waiting.erase w } }
    if !w.due then State.postDue s ws
    else if !s.pairEn w.fn w.pair || !s.fnActive w.fn then State.postDue (drop s) ws
    else if s.entryWaits w.fn w.pair w.order then State.postDue s ws
    else
      State.postDue ((drop s).cqWrite w.fn w.pair (entryBytes w.result w.pair w.cid.toNat w.status.toNat w.detail)) ws

/-- Every due entry posted as far as the order of R380 allows. -/
def State.postAll (s : State) : State := s.postDue s.hst.waiting

/-- Whether a COMPLETE waits (R380), the entries of the program set among those before it. -/
def State.completeWaits (s : State) (c : Cmd) : Bool :=
  let f := dArg c.desc % 16
  let p := dC c.desc
  s.entryWaits f p c.seq || s.hst.waiting.any fun w => w.due && w.fn == f && w.pair == p && decide (w.order ≤ c.seq)

/-- COMPLETE (R380). -/
def execComplete (i : Nat) (s : State) : Res :=
  match s.ready 4 i 3 with
  | none => .next s
  | some c =>
    let f := dArg c.desc % 16
    let p := dC c.desc
    let b := leBytes 8 (dA c.desc).toNat ++ leBytes 8 (dB c.desc).toNat
    .next (if 15 < p ∨ !s.pairEn f p ∨ !s.fnActive f ∨ 15 < natAt b 6 2 then (s.start c).finish c St.BAD_PARAM
      else if s.completeWaits c then s
      else ((s.start c).cqWrite f p b).finish c St.OK)

/-- MSIX_MESSAGE (R369, R381): a pair's message goes out, or stays pending while its vector is masked, when COAL_CNT entries wait to be signalled, or when the time limit that
COAL_US sets has passed, which is when the event comes with fewer.
DEDUCED: log entry 24. -/
def execMsixMessage (fn pair : FnId) (s : State) : Res :=
  let k := pairNo fn pair
  let q := s.pair fn pair
  if 0 < q.unsignalled ∧ (max 1 (s.fld F.HST_QCOAL.COAL_CNT k) ≤ q.unsignalled ∨ s.fld F.HST_QCOAL.COAL_US k ≠ 0) then
    .next ((s.msixSend fn (s.fld F.HST_QCFG.VEC k)).setPair fn pair { q with unsignalled := 0 })
  else .next s

/-! ## Work items (R376 to R379) -/

/-- The check of R378 that a work item fails, as the status and detail of the completion HST writes; OK for a zero-length
item; none for an item passed on.
DEDUCED: log entry 28. -/
def itemCheck (b : List Byte) : Option (W16 × Nat) :=
  let op := natAt b 0 1
  let cls := op / 64
  let fl := natAt b 1 1
  let len := natAt b 16 4
  if op = 0 ∨ cls = 3 then some (St.BAD_PARAM, 1)
  else if 1 < fl then some (St.BAD_PARAM, 2)
  else if 16777216 < len ∨ (cls = 0 ∧ len ≠ 0) then some (St.BAD_PARAM, 3)
  else if fl = 1 ∧ (cls ≠ 1 ∨ len ≠ 0) then some (St.BAD_PARAM, 4)
  else if len ≠ 0 ∧ natAt b 8 8 % 4 ≠ 0 then some (St.BAD_PARAM, 5)
  else if cls ≠ 0 ∧ len = 0 ∧ fl = 0 then some (St.OK, 0)
  else none

/-- A work notice (R379). -/
def noticeItem (fn p count : Nat) (h : W32) (first : Nat) : W128 :=
  BitVec.ofNat 128 (leNat ([2] ++ leBytes 1 fn ++ leBytes 1 p ++ leBytes 1 count ++ leBytes 4 h.toNat ++ leBytes 2 first))

/-- Items per batch (R376): BATCH, with 0 as 1 and above 64 as 64. -/
def State.batch (s : State) : Nat := min 64 (max 1 (s.fld F.HST_CTL.BATCH))

/-- A batch whose buffer was allocated (R376, R378): items written, those HST ends itself with a first byte 0; the SQ head
advanced; their completions; then the notice, or the buffer freed when no item is left. -/
def State.batchPut (s : State) (f p : Nat) (h : W32) (items : List (List Byte)) : State :=
  let first := (s.pair f p).sqHead
  let ended := items.filter fun b => (itemCheck b).isSome
  let bytes := items.flatMap fun b => if (itemCheck b).isSome then (0 : Byte) :: bytesAt b 1 63 else bytesAt b 0 64
  let s := s.bufWrite h 0 bytes false
  let s := s.bump F.HST_CNT.ITEMS items.length
  let s := s.bump F.HST_CNT.MALFORMED (items.filter fun b => (itemCheck b).any fun e => e.1 != St.OK).length
  let s := s.setPair f p { s.pair f p with sqHead := (first + items.length) % s.sqDepth f p }
  let s := s.each ended fun s b => match itemCheck b with
    | some (st, d) => s.cqWrite f p (entryBytes 0 p (natAt b 2 2) st.toNat d)
    | none => s
  if ended.length = items.length then s.freeBuf h
  else (s.qput (s.fld F.HST_FN.NQ f) (noticeItem f p items.length h first)).1

/-- Whether HST may fetch these items from a pair (R376): RUN, the pair enabled and its function active, a batch no longer than
BATCH and the items posted, room in the notice queue and for the completions HST writes itself. -/
def State.batchAllowed (s : State) (f p : Nat) (items : List (List Byte)) : Bool :=
  s.flag F.HST_CTL.RUN && s.fnActive f && s.pairEn f p && decide (0 < items.length) && decide (items.length ≤ s.batch) &&
    decide (items.length ≤ s.sqItems f p) && s.qRoom (s.fld F.HST_FN.NQ f) &&
    s.cqRoom f p (items.filter fun b => (itemCheck b).isSome).length

/-- Whether a pair is one that HST's turn comes to (R376): RUN, pair enabled, function active, items pending and room in the
notice queue. -/
def State.fetchable (s : State) (k : Nat) : Bool :=
  let f := k / 16
  let p := k % 16
  s.flag F.HST_CTL.RUN && s.fnActive f && s.pairEn f p && decide (0 < s.sqItems f p) && s.qRoom (s.fld F.HST_FN.NQ f)

/-- The pair whose turn it is, in the order of (function, pair) behind the one served last. -/
def State.fetchTurn (s : State) : Option Nat := ((List.range 256).map fun i => (s.hst.turn + i) % 256).find? s.fetchable

/-- The turn goes on behind a pair. -/
def State.turnTo (s : State) (k : Nat) : State := { s with hst := { s.hst with turn := k % 256 } }

/-- WORK_BATCH_FETCH (R376): in its turn, the next items of one SQ, as host memory holds them, go into a batch buffer that HST
allocates as requester 20 for the stream cores; EMPTY sets WI_EMPTY, fetches nothing and takes the function's turn.
DEDUCED: log entry 28. -/
def execWorkBatchFetch (fn pair : FnId) (items : List (List Byte)) (s : State) : Res :=
  whileClocked s <|
  let k := pairNo fn pair
  let s := if s.flag F.HST_CTL.RUN && s.fnActive fn && s.pairEn fn pair then s.qChecked (s.fld F.HST_FN.NQ fn) else s
  if s.fetchTurn ≠ some k then .next s
  else if !s.batchAllowed fn pair items then .next (s.turnTo (k + 1))
  else match s.alloc (s.fld F.HST_CTL.WI_CLASS) Owner.cores 20 with
    | (s, none) => .next ((s.raise F.HST_STAT.WI_EMPTY).turnTo (16 * (fn.val + 1)))
    | (s, some h) => .next ((s.batchPut fn pair h items).turnTo (k + 1))

/-! ## DMA (R324, R382) -/

/-- Whether a function's transfers may run (R382).
DEDUCED: log entry 17. -/
def State.dmaReady (s : State) (f : Nat) : Bool := s.fnActive f && s.busMaster f

/-- What the host's memory returned to FETCH as far as `n` bytes go. -/
def clipTlps : Nat → List (List Byte × Bool) → List (List Byte × Bool)
  | _, [] => []
  | n, (b, m) :: l => if n = 0 then [] else (b.take n, m) :: clipTlps (n - b.length) l

/-- TLPs written to tiles one behind the other, each with its own poison mark (R255, R382). -/
def State.putTlps (s : State) (a : W64) : List (List Byte × Bool) → State
  | [] => s
  | (b, m) :: l => State.putTlps (s.taWrite a b m) (a + BitVec.ofNat 64 b.length) l

/-- The bit under which AER logs a failed read. -/
def aerBit (e : ReadError) : Nat :=
  match e with
  | .unsupported => 20
  | .abort => 15
  | .timeout => 14

/-- FETCH (R382): read requests for the range, and the bytes that the host's memory returned, written to tiles; the result is their
CRC-32C. Data that does not come in full is a timeout. -/
def execFetch (i : Nat) (r : HostRead) (s : State) : Res :=
  runCmd 4 i 1 s fun c s =>
    let n := dC c.desc
    let f := dArg c.desc % 16
    if n = 0 then s.finish c St.OK
    else if !s.dmaReady f then s.finish c St.NOT_READY
    else match s.engCheckW c (dB c.desc) n with
      | some e => s.finish c e
      | none =>
        let s := s.hostReads f (dA c.desc).toNat n
        let failed (e : ReadError) : State := (s.aerLog f (aerBit e)).finish c St.BAD_PARAM
        match r with
        | .error e => failed e
        | .data l =>
          let l := clipTlps n l
          let b := l.flatMap (·.1)
          let m := l.any (·.2)
          if b.length ≠ n then failed .timeout
          else
            let s := if m then s.aerLog f 12 else s
            (s.putTlps (dB c.desc) l).finish c (if m then St.POISON else St.OK) 0 (crc32c b).toNat m

/-- The bytes of a DELIVER that passed the checks before its reads: none move while any is marked, or where the check of ARG
bit 4 fails (R255, R324). -/
def State.deliverMove (s : State) (c : Cmd) : State :=
  let n := dC c.desc
  let f := dArg c.desc % 16
  let (s, l, m) := s.taRead (dB c.desc) n
  if m then s.finish c St.POISON
  else if (dArg c.desc).testBit 4 ∧ (crc32c l).toNat ≠ dD c.desc then s.finish c St.CRC_FAIL
  else (s.hostWrites f (dA c.desc).toNat l).finish c St.OK 0 n

/-- DELIVER (R324, R356, R382). -/
def execDeliver (i : Nat) (s : State) : Res :=
  runCmd 4 i 2 s fun c s =>
    let n := dC c.desc
    if n = 0 then s.finish c St.OK
    else if !s.dmaReady (dArg c.desc % 16) then s.finish c St.NOT_READY
    else match s.engCheck c (dB c.desc) n with
      | some e => s.finish c e
      | none =>
        if (s.bufOf (taHandle (dB c.desc))).provisional then s.finish c St.NOT_READY
        else s.deliverMove c

/-! ## Resets of the port (R383, R500) -/

/-- The queue pair registers of a function back at their reset values, its pairs disabled. -/
def State.clearPairs (s : State) (f : Nat) : State :=
  { s with
    regs := s.regs.clear (0x302000 + 0x200 * f) 0x200
    hst := { s.hst with pairs := s.hst.pairs.clear (16 * f) 16 } }

/-- Configuration space and MSI-X table of a function back at their reset values. -/
def State.clearConfig (s : State) (f : Nat) : State :=
  { s with hst := { s.hst with config := s.hst.config.clear (4096 * f) 4096, msix := s.hst.msix.clear (4096 * f) 4096 } }

/-- The program set drops the records of a function that are in flight (R500): those whose group is not sealed, with what their streams
have open. It keeps no buffer of theirs.
DEDUCED: log entry 19. -/
def State.dropRecords (s : State) (f : Nat) : State :=
  let ids := s.hst.waiting.filterMap fun (w : Waiting) => if w.fn = f ∧ !w.due then w.record else none
  let gone (st sq : Nat) : Bool := ids.contains (st, sq)
  { s with
    hst := { s.hst with
      waiting := s.hst.waiting.filter fun (w : Waiting) => w.fn != f
      records := s.hst.records.filter fun (r : RecordInfo) => !gone r.stream.toNat r.seq.toNat
      streams := s.hst.streams.mapTo (fun _ => {}) fun n x => if ids.any fun i => i.1 == n then x.cleaned else x } }

/-- Steps 1 to 3 of R383 for a function, and its registers of R472: pairs disabled and cleared with the messages they owed,
commands for it ended NOT_READY, configuration space cleared. -/
def State.fnReset (s : State) (f : Nat) : State :=
  let s := (s.clearPairs f).dropRecords f
  let s := { s with hst := { s.hst with pba := s.hst.pba.filter fun k => k / 8 != f } }
  let s := s.each ((s.cmds 4).filter fun c => dArg c.desc % 16 == f) fun s c => (s.start c).finish c St.NOT_READY
  s.clearConfig f

/-- The command under which HST's own notice waits for its queue: of no core.
DEDUCED: log entry 18. -/
def noticeCmd (q seq : Nat) : Cmd := { core := 16, target := 4, desc := [], cq := q, seq := seq }

/-- A reset notice (R379, R383) put to a queue, or held until the queue takes it.
DEDUCED: log entry 18. -/
def State.resetNotice (s : State) (q f : Nat) : State :=
  let item := noticeItem f 0xFF 0 0 0
  let s := s.qChecked q
  if s.qRoom q then (s.qput q item).1
  else { s with held := s.held ++ [⟨item, noticeCmd q s.nextSeq⟩], nextSeq := s.nextSeq + 1 }

/-- A function-level reset (R383); one of function 0 disables the virtual functions too.
DEDUCED: log entry 19. -/
def State.flr (s : State) (f : Nat) : State :=
  let vfs := if f = 0 then (List.range 16).filter fun g => g != 0 && s.fnActive g else []
  let s := s.each vfs State.fnReset
  ((s.fnReset f).resetNotice (s.fld F.HST_FN.NQ f) f).raise F.HST_STAT.FLR_SEEN

/-- HST's registers at the values of R472 for PERST_N. -/
def State.clearHst (s : State) : State :=
  { s with
    regs := s.regs.clear 0x300000 0x100000
    hst := { s.hst with config := [], msix := [], pairs := [], pcieUp := false, afterPerst := true, heldTlps := [], pba := [], turn := 0 } }

/-- A PERST_N or hot reset (R500): steps 1 to 3 of R383 and a notice for every active function, then HST's registers.
DEDUCED: log entry 19. -/
def State.perst (s : State) : State :=
  let fs := (List.range 16).filter s.fnActive
  let nqs := fs.map fun f => (s.fld F.HST_FN.NQ f, f)
  let s := s.each fs State.fnReset
  let s := s.each (s.cmds 4) fun s c => (s.start c).finish c St.NOT_READY
  let s := s.each nqs fun s e => s.resetNotice e.1 e.2
  s.clearHst

/-- PERST_N (R500): PERST_N falls, or the port above sends a hot reset, whose end then is PERST_N_RISING. -/
def execPerstN (s : State) : Res :=
  let s := s.perst
  .next { s with hst := { s.hst with perstHigh := false } }

/-! ## The link -/

/-- The link reaches L0 at a rate and width (R368, R386), with PERST_N high and S4 begun; PE_WAKE_N is released. On the alternate
of S4 the link trains at 2.5 GT/s x1 only. -/
def State.linkUp (s : State) (speed width : Nat) : State :=
  let legal := decide (1 ≤ speed) && decide (speed ≤ 5) && (width == 1 || width == 2 || width == 4 || width == 8)
  if s.hst.perstHigh && s.stepBegun 4 && legal && (!s.altApplied 4 || (speed == 1 && width == 1)) then
    let s := ((s.raise F.HST_STAT.LINK_UP).setFld F.HST_STAT.SPEED speed).setFld F.HST_STAT.WIDTH width
    { s with hst := { s.hst with pcieUp := true, afterPerst := false }, pwr := { s.pwr with peWake := false } }
  else s

/-- PCIE_LINK_UP (R368, R386). -/
def execPcieLinkUp (speed width : Nat) (s : State) : Res := .next (s.linkUp speed width)

/-- PCIE_LINK_DOWN (R385): the link leaves L0 and L1 for L2, L3 or down. -/
def execPcieLinkDown (s : State) : Res := .next (s.setFlag F.HST_STAT.LINK_UP false)

/-! ## The debug aperture (R246, R256, R372) -/

/-- Whether BAR2 decodes (R372). -/
def State.bar2On (s : State) : Bool := s.flag F.HST_CTL.DBG_EN && !s.flag F.KEY_CTL.SECURE

/-- The check record of a tile as region 0 holds it (R248, R249); the bytes of one that fails its own check are open.
DEDUCED: log entry 24. -/
def State.recordBytes (s : State) (t : Nat) : List Byte :=
  if t < 256 then leBytes 16 0
  else
    let r := s.tileRec t
    if r.recBad then (List.range 16).map fun k => Config.freeByte (s.freeCtr * 16 + k)
    else
      let b := s.tileBytes t 0 4096
      let sums := if s.strong t then
          leBytes 4 (crc32c b ^^^ r.crcDiff).toNat ++
            [b.foldl (· ^^^ ·) 0 ^^^ r.pDiff, (b.zipIdx.foldl (fun q e => q ^^^ gfMul (gfPow e.2) e.1) 0) ^^^ r.qDiff]
        else leBytes 6 0
      let body := sums ++ leBytes 6 (r.fill + 2 ^ 13 * r.verified.toNat + 2 ^ 14 * r.poison.toNat + 2 ^ 16 * r.corr)
      body ++ leBytes 4 (crc32c body).toNat

/-- A raw byte at a debug address: region 0 shows the records; nothing lies beyond tile memory. -/
def State.debugByte (s : State) (a : Nat) : Byte :=
  if 4096 * s.tileCount ≤ a then 0
  else if a < 4096 * 256 then
    (if a / 16 < 16384 * s.dies then (s.recordBytes (a / 16)).getD (a % 16) 0 else 0)
  else s.memByte a

/-- Whether a debug read takes a byte with the poison mark. -/
def State.debugMarked (s : State) (a n : Nat) : Bool :=
  (List.range n).any fun k => decide (4096 * 256 ≤ a + k) && decide (a + k < 4096 * s.tileCount) &&
    (s.tileRec ((a + k) / 4096)).poison

/-- A debug write: outside region 0 and below the end of tile memory it is a write under R250 (R259). The transactional image takes
none, as TSET alone changes it (R329).
DEDUCED: log entry 24. -/
def State.debugWrite (s : State) (a : Nat) (l : List Byte) : State :=
  let sp := (spans 0 a l.length).filter fun e => decide (256 ≤ e.1) && decide (e.1 < s.tileCount) && !s.imageTile e.1
  s.each sp fun s e =>
    let (s, bad) := s.tileWrite e.1 e.2.1 (bytesAt l (4096 * e.1 + e.2.1 - a) e.2.2) false
    if bad then s.report 0x0801 e.1 else s

end Sys2Proof.Machine
end

