-- ==== Sys2Proof/Machine/Codes.lean ====
section
/-!
DEFINITION. The codes of the tape: headers and their scrambling (R41, R42, R83), the payload scrambler (R82, R84), modulation
(R86), C1 (R91 to R98), C2 and C3 as Reed-Solomon codes (R99 to R104), and the channel bits of a course and of a segment (R36,
R37, R40).
-/
namespace Sys2Proof.Machine

/-! ## Headers (R41, R42, R83) -/

/-- A course header without its CRC-16, bits [63:16] in place. -/
def headerBody (yealm group index rewrite selector : Nat) : Nat :=
  yealm % 2 ^ 28 * 2 ^ 36 + group % 64 * 2 ^ 30 + index % 256 * 2 ^ 22 + rewrite % 8 * 2 ^ 19 + selector % 8 * 2 ^ 16

/-- The CRC-16 over bytes 0 to 5 of a header (R42). -/
def headerCrc (h : Nat) : W16 := crc16 (leBytes 6 (h / 2 ^ 16)).reverse

/-- A course header (R41). -/
def courseHeader (yealm group index rewrite selector : Nat) : W64 :=
  let b := headerBody yealm group index rewrite selector
  BitVec.ofNat 64 (b + (headerCrc b).toNat)

/-- Whether a header passes its CRC-16 (R42). -/
def headerOk (h : W64) : Bool := (headerCrc h.toNat).toNat == h.toNat % 2 ^ 16

/-- The header mask (R83).
DEDUCED: log entry 73. -/
def headerMask : W64 := 0x947E338A64722377

/-- Fields of a header (R41). -/
def hdrYealm (h : W64) : Nat := h.toNat / 2 ^ 36
def hdrGroup (h : W64) : Nat := h.toNat / 2 ^ 30 % 64
def hdrIndex (h : W64) : Nat := h.toNat / 2 ^ 22 % 256
def hdrRewrite (h : W64) : Nat := h.toNat / 2 ^ 19 % 8
def hdrSelector (h : W64) : Nat := h.toNat / 2 ^ 16 % 8

/-! ## Scrambler (R82, R84) -/

/-- The payload seed of a course (R84). -/
def payloadSeed (y g i : Nat) : BitVec 31 :=
  let v := y * 2 ^ 14 + g * 2 ^ 8 + i
  let s := BitVec.ofNat 31 (v % 2 ^ 31) ^^^ BitVec.ofNat 31 (v / 2 ^ 31 * 2 ^ 20)
  if s = 0 then 0x7FFFFFFF else s

/-- `n` bits of the sequence of R82; the register holds the next 31 bits, the first of them in bit 30. -/
def scramble : Nat → BitVec 31 → List Bool
  | 0, _ => []
  | n + 1, s => s.getLsbD 30 :: scramble n ((s <<< 1) ||| (if s.getLsbD 2 ^^ s.getLsbD 30 then 1 else 0))

/-- The sequence that scrambles a header's payload (R84). -/
def payloadBits (h : W64) : List Bool := scramble 9216 (payloadSeed (hdrYealm h) (hdrGroup h) (hdrIndex h))

/-! ## C1 (R91 to R98) -/

/-- The shift of block (r, j), none for an all-zero block (R93). -/
def c1Shift (r j : Nat) : Option Nat :=
  if j < 32 then some ((match r with | 0 => 1 | 1 => 5 | 2 => 11 | _ => 23) * (2 * ((11 * j + 7) % 32) + 1) % 256)
  else match j, r with
    | 32, 0 => some 1
    | 32, 1 => some 0
    | 32, 3 => some 1
    | 33, 0 => some 0
    | 33, 1 => some 0
    | 34, 1 => some 0
    | 34, 2 => some 0
    | 35, 2 => some 0
    | 35, 3 => some 0
    | _, _ => none

/-- A block of 256 codeword bits, bit t of the block in bit t. -/
abbrev Block := BitVec 256

/-- The block that 32 bytes spell (R80, R92). -/
def blockOf (l : List Byte) : Block := BitVec.ofNat 256 (leNat (l.map fun b => b.reverse))
/-- The 32 bytes of a block. -/
def blockBytes (b : Block) : List Byte := (leBytes 32 b.toNat).map fun b => b.reverse
/-- `shift(v, s)` of R94. -/
def blockShift (b : Block) (s : Nat) : Block := b.rotateRight s

/-- λ of block row r over the data blocks (R94). -/
def c1Lambda (r : Nat) (u : List Block) : Block :=
  u.zipIdx.foldl (fun x e => x ^^^ (match c1Shift r e.2 with | some h => blockShift e.1 h | none => 0)) 0

/-- The C1 codeword of 1,024 data bytes: 1,152 bytes (R94). -/
def c1Encode (data : List Byte) : List Byte :=
  let u := (List.range 32).map fun j => blockOf (bytesAt data (32 * j) 32)
  let p0 := c1Lambda 0 u ^^^ c1Lambda 1 u ^^^ c1Lambda 2 u ^^^ c1Lambda 3 u
  let p1 := c1Lambda 0 u ^^^ blockShift p0 1
  let p2 := c1Lambda 1 u ^^^ p0 ^^^ p1
  let p3 := c1Lambda 2 u ^^^ p2
  bytesAt data 0 1024 ++ blockBytes p0 ++ blockBytes p1 ++ blockBytes p2 ++ blockBytes p3

/-- Whether a codeword satisfies every check of block row r (R92). -/
def c1RowOk (blocks : List Block) (r : Nat) : Bool :=
  blocks.zipIdx.foldl (fun x e => x ^^^ (match c1Shift r e.2 with | some h => blockShift e.1 h | none => 0)) (0 : Block) == 0

/-- Whether a codeword satisfies every check of R92. -/
def c1Ok (blocks : List Block) : Bool := (List.range 4).all (c1RowOk blocks)

/-- What a check of min-sum decoding keeps of its variables: least and second least magnitude, the column of the least, and
whether an odd number of them favours 1. -/
structure CheckAcc where
  min1 : Option Rat := none
  min2 : Option Rat := none
  col : Nat := 0
  odd : Bool := false

/-- A check with one more variable. -/
def CheckAcc.add (a : CheckAcc) (j : Nat) (q : Rat) : CheckAcc :=
  let m := if q < 0 then -q else q
  let o := a.odd ^^ decide (q < 0)
  match a.min1 with
  | none => { min1 := some m, min2 := a.min2, col := j, odd := o }
  | some x =>
    if m < x then { min1 := some m, min2 := some x, col := j, odd := o }
    else { a with min2 := some (match a.min2 with | some y => if m < y then m else y | none => m), odd := o }

/-- The message of a check to the variable of column j, which told it `q` (R96). -/
def CheckAcc.msg (a : CheckAcc) (scale : Rat) (j : Nat) (q : Rat) : Rat :=
  let m := ((if a.col = j then a.min2 else a.min1).getD 0) * scale
  if a.odd ^^ decide (q < 0) then -m else m

/-- A list turned so that element t is element t + s of the old one. -/
def turn {α : Type} (l : List α) (s : Nat) : List α := l.drop s ++ l.take s

/-- What C1 decoding holds: the output LLRs by block column, and the messages of each block row by column in check order. -/
structure C1State where
  llr : List (List Rat)
  msgs : List (List (List Rat))

/-- One layer of an iteration: block row r (R96). Messages and sums are exact rationals, as the rule gives them no width and no
rounding.
DESIGN CHOICE: log entry 89. -/
def C1State.layer (d : C1State) (scale : Rat) (r : Nat) : C1State :=
  let rm := d.msgs.getD r []
  let q := (List.range 36).map fun j => match c1Shift r j with
    | some h => List.zipWith (· - ·) (turn (d.llr.getD j []) h) (rm.getD j [])
    | none => []
  let acc := q.zipIdx.foldl (fun a e => if e.1.isEmpty then a else List.zipWith (fun x v => CheckAcc.add x e.2 v) a e.1)
    (List.replicate 256 {})
  let rm' := q.zipIdx.map fun e => List.zipWith (fun x v => CheckAcc.msg x scale e.2 v) acc e.1
  let llr' := (List.range 36).map fun j => match c1Shift r j with
    | some h => turn (List.zipWith (· + ·) (q.getD j []) (rm'.getD j [])) ((256 - h) % 256)
    | none => d.llr.getD j []
  { llr := llr', msgs := d.msgs.set r rm' }

/-- The hard decisions: 1 where the LLR is negative (R97). -/
def C1State.hard (d : C1State) : List Block :=
  d.llr.map fun l => BitVec.ofNat 256 ((l.foldr (fun x n => 2 * n + (if x < 0 then 1 else 0)) 0))

/-- Iterations until C1 passes or `n` are made: the state, and whether it passed, with how many are left. -/
def C1State.iterate (d : C1State) (scale : Rat) : Nat → C1State × Bool × Nat
  | 0 => (d, false, 0)
  | n + 1 =>
    let d := (List.range 4).foldl (fun d r => d.layer scale r) d
    if c1Ok d.hard then (d, true, n) else C1State.iterate d scale n

/-- New input LLRs taken under the messages held (R124). -/
def C1State.input (d : C1State) (llr : List Int) : C1State :=
  let blocks := (List.range 36).map fun j => ((llr.drop (256 * j)).take 256).map fun (x : Int) => (x : Rat)
  let add (r : Nat) (bl : List (List Rat)) : List (List Rat) := (List.range 36).map fun j => match c1Shift r j with
    | some h => List.zipWith (· + ·) (bl.getD j []) (turn ((d.msgs.getD r []).getD j []) ((256 - h) % 256))
    | none => bl.getD j []
  { d with llr := (List.range 4).foldl (fun bl r => add r bl) blocks }

/-- The decoder before its first pass: every message 0. -/
def C1State.start : C1State :=
  { llr := [], msgs := List.replicate 4 (List.replicate 36 (List.replicate 256 0)) }

/-- The correction count (R98): decided bits that differ from the sign of their input, and bits that came in as 0. -/
def c1Count (llr : List Int) (hard : List Block) : Nat :=
  llr.zipIdx.foldl (fun n e =>
    if e.1 = 0 then n + 1 else if (hard.getD (e.2 / 256) 0).getLsbD (e.2 % 256) = decide (e.1 < 0) then n else n + 1) 0

/-- C1 over one detector pass of a course copy, at most `n` iterations from the messages held (R96, R97, R124): where it passes, the
data bytes and the correction count, which compares with the input LLRs of this pass, the one in which C1 passes.
DESIGN CHOICE: log entry 90. -/
def c1Pass (scale : Rat) (d : C1State) (n : Nat) (llr : List Int) : C1State × Option (List Byte × Nat) :=
  let (d, ok, _) := (d.input llr).iterate scale n
  (d, if ok then some ((d.hard.flatMap blockBytes).take 1024, c1Count llr d.hard) else none)

/-- The extrinsic output of C1 (R123): its output LLRs less its input LLRs. -/
def C1State.extrinsic (d : C1State) (llr : List Int) : List Rat := List.zipWith (fun (x : Rat) (y : Int) => x - y) d.llr.flatten llr

/-! ## Reed-Solomon codes (R99 to R104) -/

/-- A polynomial over the field, lowest degree first. -/
abbrev Poly := List Byte

/-- Sum of two polynomials. -/
def Poly.add : Poly → Poly → Poly
  | [], b => b
  | a, [] => a
  | x :: a, y :: b => (x ^^^ y) :: Poly.add a b

/-- A polynomial times a constant. -/
def Poly.scale (c : Byte) (p : Poly) : Poly := p.map (gfMul c)

/-- Product of two polynomials. -/
def Poly.mul : Poly → Poly → Poly
  | [], _ => []
  | x :: a, b => Poly.add (Poly.scale x b) (0 :: Poly.mul a b)

/-- Value at a point. -/
def Poly.eval (p : Poly) (x : Byte) : Byte := p.foldr (fun c v => c ^^^ gfMul x v) 0

/-- The formal derivative. -/
def Poly.deriv (p : Poly) : Poly := (p.drop 1).zipIdx.map fun e => if e.2 % 2 = 0 then e.1 else 0

/-- A polynomial without leading zeros. -/
def Poly.trim (p : Poly) : Poly := (p.reverse.dropWhile (· == 0)).reverse

/-- Division by a trimmed nonzero polynomial: quotient and remainder. -/
def Poly.divMod : Nat → Poly → Poly → Poly × Poly
  | 0, a, _ => ([], a)
  | k + 1, a, b =>
    let a := a.trim
    if a.length < b.length then ([], a)
    else
      let c := gfDiv (a.getLastD 0) (b.getLastD 0)
      let t := List.replicate (a.length - b.length) 0 ++ [c]
      let (q, r) := Poly.divMod k (Poly.add a (Poly.mul t b)) b
      (Poly.add q t, r)

/-- The generator with roots α^0 to α^(r − 1). -/
def rsGenerator (r : Nat) : Poly := (List.range r).foldl (fun g j => Poly.mul g [gfPow j, 1]) [1]

/-- The r parity symbols of a list of data symbols, in codeword order (R101, R103). -/
def rsParity (r : Nat) (data : List Byte) : List Byte :=
  let (_, rem) := Poly.divMod (data.length + 1) (List.replicate r 0 ++ data.reverse) (rsGenerator r)
  (bytesAt rem 0 r).reverse

/-- Syndromes of a word, symbol i the coefficient of x^(n − 1 − i). -/
def rsSyndromes (r : Nat) (w : List Byte) : Poly := (List.range r).map fun j => w.foldl (fun v s => gfMul v (gfPow j) ^^^ s) 0

/-- The extended Euclidean steps that find the error locator and evaluator: until the remainder's degree d has 2d < r + f. -/
def rsEuclid (r f : Nat) : Nat → Poly → Poly → Poly → Poly → Poly × Poly
  | 0, _, rc, _, uc => (rc, uc)
  | k + 1, rp, rc, up, uc =>
    let rc := rc.trim
    if rc.isEmpty ∨ 2 * (rc.length - 1) < r + f then (rc, uc)
    else
      let (q, rn) := Poly.divMod (rp.length + 1) rp rc
      rsEuclid r f k rc rn uc (Poly.add up (Poly.mul q uc))

/-- The corrected word of a codeword with errors and erasures, with the number of symbols changed; none when no codeword lies
within 2e + f ≤ r (R102, R104). `er` lists the erased positions. -/
def rsDecode (r : Nat) (w : List Byte) (er : List Nat) : Option (List Byte × Nat) :=
  let n := w.length
  let f := er.length
  if r < f then none
  else
    let s := rsSyndromes r w
    if s.all (· == 0) then some (w, 0)
    else
      let x (i : Nat) : Byte := gfPow (n - 1 - i)
      let gamma := er.foldl (fun p i => Poly.mul p [1, x i]) [1]
      let t := ((Poly.mul s gamma).take r)
      let (omega, lam) := rsEuclid r f (r + 1) (List.replicate r 0 ++ [1]) t [] [1]
      let psi := Poly.mul lam gamma
      let loc := (List.range n).filter fun i => psi.eval (gfInv (x i)) == 0
      let fix := loc.map fun i =>
        let xi := gfInv (x i)
        (i, gfMul (x i) (gfDiv (omega.eval xi) (psi.deriv.eval xi)))
      let c := fix.foldl (fun c e => c.set e.1 (c.getD e.1 0 ^^^ e.2)) w
      let errors := ((List.range n).filter fun i => c.getD i 0 != w.getD i 0 && !er.contains i).length
      if (rsSyndromes r c).all (· == 0) ∧ 2 * errors + f ≤ r then
        some (c, ((List.range n).filter fun i => c.getD i 0 != w.getD i 0).length)
      else none

/-! ## Channel bits of a course (R40, R86) -/

/-- The low `n` bits of a number, most significant first. -/
def bitsOf (n v : Nat) : List Bool := (List.range n).map fun i => v.testBit (n - 1 - i)

/-- Each 32 bits followed by the complement of their last (R86); `n` words. -/
def modulate : Nat → List Bool → List Bool
  | 0, _ => []
  | n + 1, l => l.take 32 ++ [!(l.getD 31 false)] ++ modulate n (l.drop 32)

/-- The 0b1100 tone, from its first bit (R81). -/
def tone (n : Nat) : List Bool := (List.range n).map fun i => decide (i % 4 < 2)

/-- The 9,764 channel bits of a course (R40, R78). -/
def courseBits (h : W64) (data : List Byte) : List Bool :=
  let hdr := modulate 2 (bitsOf 64 (h ^^^ headerMask).toNat)
  let cw := List.zipWith (· ^^ ·) (msbBits (c1Encode data)) (payloadBits h)
  tone 48 ++ bitsOf 32 0x5CB1E268 ++ hdr ++ modulate 24 (cw.take 768) ++ bitsOf 32 0x6D4F0B39 ++ hdr ++
    modulate 264 (cw.drop 768) ++ tone 16

/-- The course bit offset at the end of an atom; 0 before the first (R36). -/
def atomEnd (k : Nat) : Nat :=
  if k = 0 then 0 else if k ≤ 26 then 113 + 33 * (k - 1) else if k ≤ 291 then 1003 + 33 * (k - 27) else 9764

/-- The last atom, from atom `a` on, that fits in `room` slots, or `a − 1` when none does (R37). -/
def lastAtom (a room : Nat) : Nat :=
  ((List.range 293).filter fun k => decide (a ≤ k) && decide (atomEnd k ≤ atomEnd (a - 1) + room)).getLastD (a - 1)

end Sys2Proof.Machine
end

