-- ==== Sys2Proof/Machine/Packing.lean ====
section
/-!
DEFINITION. The tape format as the writers lay it down: active channels (R8, R46), segments and their LPOS (R31, R35), packing
(R37, R38), let slots as their first atom goes (R52, R53), and FMT's judgement of courses: lets, instances, seals (R54, R55,
R164 to R168).
-/
namespace Sys2Proof.Machine

/-! ## Channels and segments -/

/-- The dark group in force (R8, R176). -/
def State.darkGroup (s : State) : Option Nat :=
  if s.flag F.RDC_CFG.DARK_EN then some (s.fld F.RDC_CFG.DARK_GRP) else none

/-- The active list (R46): the channels outside the dark group, ascending. -/
def State.activeList (s : State) : List Nat := (List.range 64).filter fun c => s.darkGroup != some (c / 4)

/-- The active list of quarter q of a quad-written yealm; empty for the quarter that holds the dark group (R68). -/
def State.quarterList (s : State) (q : Nat) : List Nat :=
  let l := s.activeList.filter fun c => c / 16 == q
  if l.length = 16 then l else []

/-- The scout quarter: the lowest that holds no dark group (R146). -/
def State.scoutQuarter (s : State) : Nat :=
  ((List.range 4).find? fun q => (s.darkGroup.map (· / 4)) != some q).getD 0

/-- Segments of the data zone on one wrap (R32). -/
def segsPerWrap : Nat := 3367000

/-- The LPOS of the batten that opens segment k of a wrap, counted in the direction of travel (R29, R32, R35). -/
def segLpos (wrap k : Nat) : Nat := if wrap % 2 = 0 then 6500 + k else 3373500 - k

/-- The segment of a wrap that the batten of an LPOS opens: the inverse of `segLpos`. -/
def lposSeg (wrap lpos : Nat) : Nat := if wrap % 2 = 0 then lpos - 6500 else 3373500 - lpos

/-- A place on tape, rising in the direction of travel over all wraps in the order in which they are written (R29): segment `k` of
the data zone of a wrap, and the data bits of that segment before the place, at most 14,553. -/
def tapePlace (wrap k used : Nat) : Nat := 16384 * (segsPerWrap * wrap + k) + used

/-- The wrap, the segment on it and the bits used of a place on tape. -/
def placeWrap (p : Nat) : Nat := p / 16384 / segsPerWrap
def placeSeg (p : Nat) : Nat := p / 16384 % segsPerWrap
def placeBit (p : Nat) : Nat := p % 16384

/-- Among places by channel, that of a channel, or for a channel that holds no course the one furthest in the direction of travel
(R66, R67).
DEDUCED: log entry 41. -/
def placeOn (l : List (Nat × Nat)) (c : Nat) : Nat :=
  match l.lookup c with
  | some p => p
  | none => l.foldl (fun (m : Nat) (e : Nat × Nat) => max m e.2) 0

/-- One write channel. -/
def State.wchan (s : State) (c : Nat) : WChan := s.wrc.chans.get (fun _ => {}) c
/-- The state with a write channel replaced. -/
def State.setWchan (s : State) (c : Nat) (w : WChan) : State :=
  { s with wrc := { s.wrc with chans := s.wrc.chans.set (fun _ => {}) c w } }

/-! ## Packing (R37) -/

/-- One segment packed from the courses of a channel, the first of them from atom `a` on: the pieces (course, first atom, last
atom), the courses left and the next atom of the first. -/
def packSeg : Nat → Nat → List CourseOut → Nat → List (CourseOut × Nat × Nat) × List CourseOut × Nat
  | 0, _, q, a => ([], q, a)
  | _ + 1, _, [], _ => ([], [], 1)
  | k + 1, used, c :: q, a =>
    let l := lastAtom a (14553 - used)
    if l < a then ([], c :: q, a)
    else if l = 292 then
      let (ps, r) := packSeg k (used + (9764 - atomEnd (a - 1))) q 1
      ((c, a, l) :: ps, r)
    else ([(c, a, l)], c :: q, l + 1)

/-- Packing advanced over `n` courses, the first of them from atom `a` on (R37): from a segment with its bits used, to the segment
in which the last of them ends with the bits used there. -/
def packEnd : Nat → Nat × Nat → Nat → Nat → Nat × Nat
  | 0, p, _, _ => p
  | _ + 1, p, _, 0 => p
  | k + 1, (seg, used), a, n + 1 =>
    let l := lastAtom a (14553 - used)
    if l < a then packEnd k (seg + 1, 0) a (n + 1)
    else if l = 292 then packEnd k (seg, used + (9764 - atomEnd (a - 1))) 1 n
    else packEnd k (seg + 1, 0) (l + 1) (n + 1)

/-- Where a further course begins after one that ends there: in the next segment when its first atom does not fit (R36, R37). -/
def courseBegin (p : Nat × Nat) : Nat × Nat := if 14553 < p.2 + 113 then (p.1 + 1, 0) else p

/-- Where the courses of a channel end: those laid out and not yet written, after what is written. A last segment that was filled
for want of courses is written again (R213). -/
def WChan.endPos (w : WChan) : Nat × Nat :=
  match w.rewind with
  | some (q, a) => packEnd (4 * q.length) (w.seg - 1, 0) a q.length
  | none => packEnd (4 * w.queue.length) (w.seg, 0) w.atom w.queue.length

/-- Where a channel's next course begins (R37, R38). -/
def WChan.nextPos (w : WChan) : Nat × Nat := courseBegin w.endPos

/-- The segments of the data zone left on a channel (R39): the one in which its next course would begin counts among them, whether
or not courses before fill part of it.
DESIGN CHOICE: log entry 86. -/
def WChan.left (w : WChan) : Nat := segsPerWrap - w.nextPos.1

/-- A course's header (R41, R53, R62). -/
def CourseOut.header (c : CourseOut) : W64 :=
  match c.kind with
  | .orig => courseHeader c.yealm c.g c.i c.rewrite c.selector
  | .letCopy => courseHeader c.yealm c.g c.i c.rewrite c.selector
  | .sealCourse => courseHeader c.yealm c.k 254 c.rewrite c.selector
  | .slot => courseHeader c.yealm c.k 255 c.rewrite c.selector
  | .blank => courseHeader c.yealm c.k 255 c.rewrite c.selector
  | .unwritten => 0

/-- Offset of course (g, i) in a yealm buffer (R319). -/
def courseOff (n g i : Nat) : Nat := 1024 * (n * i + g)

/-- The tile address of a course in its yealm buffer. -/
def CourseOut.place (c : CourseOut) : W64 := mkTa (taHandle c.addr) (taOff c.addr + courseOff c.n c.g c.i)

/-- Bytes of a buffer as they stand. -/
def State.taBytes (s : State) (a : W64) (off n : Nat) : List Byte := s.rangeBytes (s.spansOf (taHandle a) (taOff a + off) n)

/-- The 1,024 data bytes of a course (R44, R53, R63). -/
def State.courseData (s : State) (c : CourseOut) : List Byte :=
  match c.kind with
  | .orig => s.taBytes c.addr (courseOff c.n c.g c.i) 1024
  | .letCopy => s.taBytes c.addr (courseOff c.n c.g c.i) 1024
  | .sealCourse => c.record
  | .slot => bytesAt [] 0 1024
  | .blank => bytesAt [] 0 1024
  | .unwritten => []

/-- The channel bits of a piece; a stretch that is not written (R68) is fill. -/
def State.pieceBits (s : State) (p : CourseOut × Nat × Nat) : List Bool :=
  let n := atomEnd p.2.2 - atomEnd (p.2.1 - 1)
  if p.1.kind = .unwritten then tone n
  else ((courseBits p.1.header (s.courseData p.1)).drop (atomEnd (p.2.1 - 1))).take n

/-- The written bits of a segment: mini-preamble, resume mark, courses and fill (R35, R36). -/
def State.segmentBits (s : State) (ps : List (CourseOut × Nat × Nat)) : List Bool :=
  let d := ps.flatMap s.pieceBits
  tone 24 ++ bitsOf 16 0xE32C ++ d ++ tone (14553 - d.length)

/-! ## Jobs -/

/-- The WRITE a course belongs to. -/
def State.jobOf (s : State) (n : Nat) : Option YealmJob := s.fmt.jobs.find? fun j => j.cmd.seq == n

/-- The state with one WRITE's record changed. -/
def State.updJob (s : State) (n : Nat) (f : YealmJob → YealmJob) : State :=
  { s with fmt := { s.fmt with jobs := s.fmt.jobs.map fun j => if j.cmd.seq = n then f j else j } }

/-- The state with one SEAL's record changed. -/
def State.updSeal (s : State) (n : Nat) (f : SealJob → SealJob) : State :=
  { s with fmt := { s.fmt with seals := s.fmt.seals.map fun j => if j.cmd.seq = n then f j else j } }

/-- WRITING follows the WRITEs and SEALs that FMT holds and the courses still to be written. -/
def State.writingFlag (s : State) : State :=
  s.setFlag F.WRC_STAT.WRITING (!s.fmt.jobs.isEmpty || !s.fmt.seals.isEmpty ||
    s.wrc.chans.any fun e => !e.2.queue.isEmpty || e.2.gateOpen)

/-- A let slot as its first atom goes (R53): the let it holds, or a blank let. -/
def State.resolveSlot (s : State) (c : CourseOut) : State × CourseOut :=
  if c.kind ≠ .slot then (s, c)
  else match s.jobOf c.job with
    | none => (s, { c with kind := .blank })
    | some j =>
      if j.inst ≠ c.rewrite then (s, { c with kind := .blank })
      else
        let key := c.quarter * 1024 + c.pos
        let s := s.updJob c.job fun j => { j with gone := j.gone.set (fun _ => false) key true }
        match j.slots.get (fun _ => 0) key with
        | 0 => (s, { c with kind := .blank })
        | v + 1 => (s, { c with kind := .letCopy, g := v / 256 % 256, i := v % 256 })

/-- The slots among the pieces of a segment that begin in it, resolved. -/
def State.resolveAll (s : State) : List (CourseOut × Nat × Nat) → State × List (CourseOut × Nat × Nat)
  | [] => (s, [])
  | (c, a, l) :: ps =>
    let (s, c) := if a = 1 then s.resolveSlot c else (s, c)
    let (s, ps) := State.resolveAll s ps
    (s, (c, a, l) :: ps)

/-! ## Seal records (R63) -/

def recSeq (r : List Byte) : Nat := natAt r 8 8
def recFirst (r : List Byte) : Nat := natAt r 16 4 % 2 ^ 28
def recLast (r : List Byte) : Nat := natAt r 20 4
def recIdxFirst (r : List Byte) : Nat := natAt r 36 4
def recIdxCount (r : List Byte) : Nat := natAt r 40 2
def recSkip (r : List Byte) : Nat := natAt r 50 4 % 2 ^ 28
def recFlags (r : List Byte) : Nat := natAt r 6 2

/-- Whether a yealm number lies in the run that an early close skips (R58, R63). -/
def skipped (skip y : Nat) : Bool := skip != 0 && decide (skip ≤ y) && decide (y ≤ skip / 16 * 16 + 13)

/-- The yealms whose verify a seal waits for (R61, R62): the group's numbers but for the skipped ones, and its index yealms. -/
def groupYealms (r : List Byte) : List Nat :=
  ((List.range (recLast r + 1 - recFirst r)).map (· + recFirst r)).filter (fun y => !skipped (recSkip r) y) ++
    (List.range (recIdxCount r)).map (· + recIdxFirst r)

/-- Whether a yealm counts for the ending of a seal by R321: its first yealm number to its last. -/
def inGroup (r : List Byte) (y : Nat) : Bool := decide (recFirst r ≤ y) && decide (y ≤ recLast r)

/-! ## Ends of commands (R167, R321) -/

/-- A SEAL ends. -/
def State.endSeal (s : State) (j : SealJob) (st : W16) (result : Nat) : State :=
  let s := { s with fmt := { s.fmt with seals := s.fmt.seals.filter fun x => x.cmd.seq != j.cmd.seq } }
  let s := if st = St.OK then s else s.sealFail j.cmd st
  (s.finish j.cmd st 0 result).writingFlag

/-- A yealm's WRITE ends without its yealm: MEDIA_LOST, which is reported, or TAPE_FULL; a held seal of its group ends so too
(R39, R55, R167, R321). -/
def State.loseYealm (s : State) (j : YealmJob) (st : W16) : State :=
  let s := { s with
    fmt := { s.fmt with
      jobs := s.fmt.jobs.filter fun x => x.cmd.seq != j.cmd.seq
      ended := (s.fmt.ended.filter fun (e : Nat × W16) => e.1 != j.yealm) ++ [(j.yealm, st)] } }
  let s := s.finish j.cmd st j.inst j.letCount
  let s := if st = St.MEDIA_LOST then s.report 0x0B01 j.yealm else s
  let s := s.each (s.fmt.seals.filter fun (x : SealJob) => !x.begun && inGroup x.record j.yealm) fun s x => s.endSeal x st 0
  (s.dataFault j.yealm st).writingFlag

/-- A new instance of a yealm is scheduled (R54, R55, R167). -/
def State.scheduleInst (s : State) (j : YealmJob) : State :=
  if 7 ≤ j.inst then s.loseYealm j St.MEDIA_LOST
  else
    let s := s.updJob j.cmd.seq fun j => { j with scheduled := some s.fmt.nextSched }
    ({ s with fmt := { s.fmt with nextSched := s.fmt.nextSched + 1 } }).bump F.WRC_CNT0.REINST

/-- A yealm has passed verify whole (R13): its WRITE ends OK with the lets assigned and the highest rewrite count. -/
def State.yealmDone (s : State) (j : YealmJob) : State :=
  let s := { s with
    fmt := { s.fmt with
      jobs := s.fmt.jobs.filter fun x => x.cmd.seq != j.cmd.seq
      passed := s.fmt.passed ++ [j.yealm] } }
  (s.finish j.cmd St.OK j.inst j.letCount).writingFlag

/-! ## Judgement of one course -/

/-- The key of a course in its WRITE's record. -/
def CourseOut.key (c : CourseOut) : Nat := c.quarter * 65536 + c.g * 256 + c.i

/-- The lowest let slot of an instance that holds no let and whose first atom has not gone (R166). -/
def YealmJob.freeSlot (j : YealmJob) (quarter : Nat) : Option Nat :=
  (List.range (8 * j.n)).find? fun q =>
    !j.gone.get (fun _ => false) (quarter * 1024 + q) && j.slots.get (fun _ => 0) (quarter * 1024 + q) == 0

/-- A failed verify of a yealm's course (R166). -/
def State.failYealm (s : State) (j : YealmJob) (c : CourseOut) : State :=
  if j.inst ≠ c.rewrite ∨ j.scheduled.isSome ∨ j.passed.get (fun _ => false) c.key then s
  else
    let t := j.tries.get (fun _ => 0) c.key + 1
    let s := s.updJob c.job fun j => { j with tries := j.tries.set (fun _ => 0) c.key t }
    match (if t = 3 then none else j.freeSlot c.quarter) with
    | none => s.scheduleInst j
    | some q =>
      let s := s.updJob c.job fun j =>
        { j with
          slots := j.slots.set (fun _ => 0) (c.quarter * 1024 + q) (c.g * 256 + c.i + 1)
          letCount := j.letCount + 1 }
      s.bump F.WRC_CNT0.LETS

/-- One more course of a seal judged. -/
def State.judgeSeal (s : State) (c : CourseOut) (pass : Bool) : State :=
  s.updSeal c.job fun j => { j with judged := j.judged + 1, passes := j.passes + pass.toNat }

/-- A course fails verify (R164). -/
def State.failCourse (s : State) (c : CourseOut) : State :=
  if c.again then s
  else match c.kind with
    | .orig => match s.jobOf c.job with
      | some j => s.failYealm j c
      | none => s
    | .letCopy => match s.jobOf c.job with
      | some j => s.failYealm j c
      | none => s
    | .sealCourse => s.judgeSeal c false
    | _ => s

/-- A course passes verify (R164). A course that a later instance replaces counts no more. -/
def State.passCourse (s : State) (c : CourseOut) : State :=
  if c.again then s
  else match c.kind with
    | .sealCourse => s.judgeSeal c true
    | .slot => s
    | .blank => s
    | .unwritten => s
    | _ => match s.jobOf c.job with
      | none => s
      | some j =>
        if j.inst ≠ c.rewrite ∨ j.scheduled.isSome ∨ j.passed.get (fun _ => false) c.key then s
        else
          let j := { j with passed := j.passed.set (fun _ => false) c.key true, pending := j.pending - 1 }
          let s := s.updJob c.job fun _ => j
          if j.pending = 0 then s.yealmDone j else s

end Sys2Proof.Machine
end

