-- ==== Sys2Proof/Machine/Signal.lean ====
section
/-!
DEFINITION. The signal path of a read channel, sample by sample (R113 to R121, R126 to R135): asymmetry corrector, interpolator and
timing loop, sample history, equaliser, soft detector, defect flags and adaptive loops, with the zones their values come from.
-/
namespace Sys2Proof.Machine

/-! ## Numbers -/

/-- A fraction without its sign. -/
def ratAbs (x : Rat) : Rat := if x < 0 then -x else x

/-- The sum of a list. -/
def ratSum (l : List Rat) : Rat := l.foldl (· + ·) 0

/-- A value within two bounds. -/
def ratClamp (lo hi x : Rat) : Rat := if x < lo then lo else if hi < x then hi else x

/-- Nearest whole number of n / d; of two the spec names none. -/
def roundDiv (n : Int) (d : Nat) : Int :=
  let f := n / (d : Int)
  let r := n % (d : Int)
  if 2 * r < d then f else if (d : Int) < 2 * r then f + 1 else if Config.roundTie n d then f + 1 else f

/-- The nearest whole number.
DESIGN CHOICE: log entry 49. -/
def nearest (x : Rat) : Int := roundDiv x.num x.den

/-- The root of a fraction that is not below zero, to a whole number; what is not whole goes to one of its neighbours.
DESIGN CHOICE: log entry 49. -/
def rootOf (x : Rat) : Nat :=
  let n := Nat.sqrt x.floor.toNat
  if ((n * n : Nat) : Rat) = x then n else if Config.roundUp x.num x.den then n + 1 else n

/-- A place between ADC samples with the 6-bit fraction of the phase accumulator (R116); what lies between two of them goes to one of
its neighbours.
DESIGN CHOICE: log entry 49. -/
def phaseOf (x : Rat) : Rat :=
  let n := (64 * x).floor
  if (n : Rat) = 64 * x then x else (if Config.roundUp x.num x.den then n + 1 else n : Int) / 64

/-- 2^−k, for k below zero a power of two. -/
def gainOf (k : Int) : Rat := if k < 0 then 2 ^ k.natAbs else 1 / 2 ^ k.natAbs

/-! ## Channels -/

/-- A read channel beside its registers. -/
def State.rchan (s : State) (c : Nat) : RChan := s.rchans.get (fun _ => {}) c
/-- The state with a read channel replaced. -/
def State.setRchan (s : State) (c : Nat) (r : RChan) : State := { s with rchans := s.rchans.set (fun _ => {}) c r }
/-- Whether a read channel runs. -/
def State.chanOn (s : State) (c : Nat) : Bool := s.flag F.RDC_CH_CTL.EN c
/-- Adaptive mode; the other codes of MODE act as table mode. -/
def State.adaptive (s : State) : Bool := s.fld F.RDC_CFG.MODE == 1
/-- Channels that run. -/
def State.chansOn (s : State) : List Nat := (List.range 64).filter s.chanOn
/-- SRV's record of a channel. -/
def State.srvChan (s : State) (c : Nat) : SrvChan := s.mot.srv.get (fun _ => {}) c
/-- The state with SRV's record of a channel replaced. -/
def State.setSrvChan (s : State) (c : Nat) (x : SrvChan) : State :=
  { s with mot := { s.mot with srv := s.mot.srv.set (fun _ => {}) c x } }

/-- A bit of a field set or cleared. -/
def State.setBit (s : State) (f : Field) (k : Nat) (b : Bool) : State :=
  let v := s.fld f
  s.setFld f (if b = v.testBit k then v else if b then v + 2 ^ k else v - 2 ^ k)

/-- Batten lock of a channel set or cleared. -/
def State.setLock (s : State) (c : Nat) (b : Bool) : State :=
  if c < 32 then s.setBit F.WRC_LOCK_LO.LOCK c b else s.setBit F.WRC_LOCK_HI.LOCK (c - 32) b

/-- Time in ADC samples: the count of the channel that has heard most. -/
def State.now (s : State) : Nat := s.rchans.foldl (fun (m : Nat) (e : Nat × RChan) => max m e.2.adcCount) 0

/-- Tape speed of the latest motion tick in m/s, signed. -/
def State.tapeSpeed (s : State) : Rat := s.mot.ports.get (fun _ => 0) 5

/-- Whether the tape moves at a speed at which reading and writing take place (R210). -/
def State.dataSpeed (s : State) : Bool := decide (4 / 5 ≤ ratAbs s.tapeSpeed) && decide (ratAbs s.tapeSpeed ≤ 8)

/-! ## Zones (R130 to R132, R135) -/

/-- The zone of a segment (R131). -/
def zoneOf (wrap lpos : Nat) : Nat :=
  16 * (wrap / 92) + 8 * (wrap % 2) + (if lpos < 6500 then 0 else min 7 ((lpos - 6500) / 420875))

/-- Address of a zone entry (R132). -/
def zoneAddr (c zone : Nat) : Nat := 0xD00800 + 0x1000 * c + 32 * zone

/-- The 32 bytes of a zone entry. -/
def State.zoneEntry (s : State) (c zone : Nat) : List Byte :=
  (List.range 8).flatMap fun k => leBytes 4 (s.reg (zoneAddr c zone + 4 * k)).toNat

/-- Whether a zone entry is valid, for a channel whose group's calibration has not failed (R131, R137, R147). -/
def State.zoneValid (s : State) (c : Nat) (zone : Option Nat) : Bool :=
  match zone with
  | none => false
  | some z => (natAt (s.zoneEntry c z) 6 1).testBit 0 && !(s.fld F.RDC_CAL_FAIL.CAL_FAILED).testBit (c / 4)

/-- The values in use put from a zone entry (R132): gain, boost, offset, asymmetry and taps. -/
def State.useEntry (s : State) (c : Nat) (e : List Byte) : State :=
  let s := s.setFld F.RDC_GAIN_CTL.GAIN (min 144 (natAt e 0 1)) c
  let s := s.setFld F.RDC_CTF_CTL.BOOST (min 24 (natAt e 1 1)) c
  let s := (s.setFld F.RDC_BIAS_CTL.OFFSET (natAt e 2 2) c).setFld F.RDC_BIAS_CTL.ASYM (natAt e 4 2) c
  s.each (List.range 16) fun s k => s.setFld (F.RDC_FIR_TAP.TAP k) (natAt e 8 24 / 2 ^ (12 * k)) c

/-- The values in use put back to their Reset column (R131). -/
def State.useReset (s : State) (c : Nat) : State :=
  let s := (s.setFld F.RDC_GAIN_CTL.GAIN F.RDC_GAIN_CTL.GAIN.reset c).setFld F.RDC_CTF_CTL.BOOST F.RDC_CTF_CTL.BOOST.reset c
  let s := (s.setFld F.RDC_BIAS_CTL.OFFSET 0 c).setFld F.RDC_BIAS_CTL.ASYM 0 c
  s.each (List.range 16) fun s k => s.setFld (F.RDC_FIR_TAP.TAP k) (F.RDC_FIR_TAP.TAP k).reset c

/-- The values of the current zone, or the reset values where its entry is not valid (R131, R135, R137, R138). -/
def State.useZone (s : State) (c : Nat) : State :=
  match (s.rchan c).zone, s.zoneValid c (s.rchan c).zone with
  | some z, true => (s.useEntry c (s.zoneEntry c z)).setFlag F.RDC_CH_CTL.CAL_DEFAULT false c
  | _, _ => (s.useReset c).setFlag F.RDC_CH_CTL.CAL_DEFAULT true c

/-! ## Samples to channel bits (R113, R116, R119, R120) -/

/-- ADC samples per channel bit at the loop's rate: (400 / (39.37 v)) (1 + f) (R116). -/
def bitStep (v f : Rat) : Rat := 40000 / (3937 * ratAbs v) * (1 + f)

/-- The integrator's clamp of 1.5 % (R117). -/
def freqLimit : Rat := 15 / 1000

/-- The timing error of R116 in bit periods, from its value in squared ADC codes. -/
def timingError (x : Rat) : Rat := if x = 0 then 0 else Config.timingScale * x

/-- An interpolator's output at a place between samples, from the sample before it (R116, R179): eight samples, the fourth of them at
the whole part of the place, under one of 64 filters. At a sample it is that sample.
DEDUCED: log entry 95. -/
def interpolate (filter : Nat) (l : List Rat) : Rat :=
  if filter = 0 then l.getD 3 0 else ratSum ((List.range 8).map fun k => Config.interpTap filter k * l.getD k 0)

/-- The filter of a place: its 6-bit fraction. -/
def filterOf (x : Rat) : Nat := (64 * (x - x.floor)).floor.toNat

/-- The asymmetry corrector (R113). -/
def State.corrected (s : State) (c : Nat) (v : Int) : Rat :=
  (v : Rat) - (s.sfld F.RDC_BIAS_CTL.ASYM c : Rat) / 65536 * v * v

/-- The equaliser's taps (R120). -/
def State.taps (s : State) (c : Nat) : List Rat :=
  (List.range 16).map fun k => (s.sfld (F.RDC_FIR_TAP.TAP k) c : Rat) / 1024

/-- The equaliser over a list of samples, newest first, of which the seventh stands at the main tap. -/
def firAt (taps l : List Rat) : Rat := ratSum (List.zipWith (· * ·) taps l)

/-- The equaliser over samples in order of travel: one output for each sample that stands at the main tap, but for the latest six. -/
def equalise (taps l : List Rat) : List Rat :=
  let rev := l.reverse
  ((List.range (l.length - 6)).map fun i => firAt taps (rev.drop i)).reverse

/-! ## The soft detector (R121) -/

/-- The target 1, g1 to g4 (R121). -/
def State.target (s : State) : List Rat :=
  [1, s.sfld F.RDC_TGT.G1 / 64, s.sfld F.RDC_TGT.G2 / 64, s.sfld F.RDC_TGT.G3 / 64, s.sfld F.RDC_TGT.G4 / 64]

/-- The noise predictor (R121). -/
def State.predictor (s : State) : List Rat :=
  [s.sfld F.RDC_NPRED.P1 / 128, s.sfld F.RDC_NPRED.P2 / 128, s.sfld F.RDC_NPRED.P3 / 128]

/-- The target's output for the latest five bits, newest first; a 1 stands for +1 and a 0 for −1.
DEDUCED: log entry 95. -/
def targetOut (g : List Rat) (bits : List Bool) : Rat :=
  Config.targetLevel * ratSum (List.zipWith (fun x (b : Bool) => if b then x else -x) g bits)

/-- The last four bits of a state, newest first. -/
def stateBits (n : Nat) : List Bool := [n.testBit 0, n.testBit 1, n.testBit 2, n.testBit 3]

/-- A survivor goes on with a bit, at an equaliser output, from the state it is in; `prior` is the metric that a C1 output gives the
bit being 1 (R121, R123). -/
def Survivor.extend (v : Survivor) (g p : List Rat) (state : Nat) (b : Bool) (z prior : Rat) : Survivor :=
  let e := z - targetOut g (b :: stateBits state)
  let w := e - ratSum (List.zipWith (· * ·) p v.errs)
  { metric := v.metric + Config.metricScale * w * w + (if b then prior else 0), errs := (e :: v.errs).take 3, path := b :: v.path }

/-- The better of two survivors; of two equally good ones the spec names none.
DESIGN CHOICE: log entry 43. -/
def betterSurvivor (a b : Option Survivor) : Option Survivor :=
  match a, b with
  | some x, some y => if y.metric < x.metric ∨ (y.metric = x.metric ∧ Config.roundTie x.metric.num x.metric.den) then some y else some x
  | none, y => y
  | x, none => x

/-- One bit of the detector: the survivor of each state, where the bit is forced only those of that bit. -/
def detStep (g p : List Rat) (st : List (Option Survivor)) (z prior : Rat) (force : Option Bool) : List (Option Survivor) :=
  (List.range 16).map fun n =>
    let b := n.testBit 0
    if force.any (· != b) then none
    else
      let from_ (k : Nat) := (st.getD k none).map fun v => v.extend g p k b z prior
      betterSurvivor (from_ (n / 2)) (from_ (n / 2 + 8))

/-- The detector before its first bit. -/
def detStart : List (Option Survivor) := List.replicate 16 (some {})

/-- The best survivor. -/
def bestOf (st : List (Option Survivor)) : Survivor := (st.foldl betterSurvivor none).getD {}

/-- The detector over a list of equaliser outputs with their priors. -/
def detRun (g p : List Rat) (st : List (Option Survivor)) (l : List (Rat × Rat)) : List (Option Survivor) :=
  l.foldl (fun st x => detStep g p st x.1 x.2 none) st

/-- The soft output ΔM of the first bit of a list (R121): the best metric with it at 1 less the best with it at 0, over the 96 bits
that follow. -/
def softOf (g p : List Rat) (st : List (Option Survivor)) (z prior : Rat) (l : List (Rat × Rat)) : Rat :=
  let m (b : Bool) := (bestOf (detRun g p (detStep g p st z prior (some b)) (l.take 96))).metric
  m true - m false

/-- The soft outputs of a list (R121). -/
def softs (g p : List Rat) : List (Option Survivor) → List (Rat × Rat) → List Rat
  | _, [] => []
  | st, (z, prior) :: l => softOf g p st z prior l :: softs g p (detStep g p st z prior none) l

/-! ## Defect flags (R126, R127) -/

/-- The flags of one direction: each flagged place and the `k` after it. -/
def spreadOn (k : Nat) : Nat → List Bool → List Bool
  | _, [] => []
  | n, b :: l => (b || decide (0 < n)) :: spreadOn k (if b then k else n - 1) l

/-- Flags with each stretch extended by `k` places on both sides (R127). -/
def extendFlags (k : Nat) (l : List Bool) : List Bool :=
  List.zipWith (· || ·) (spreadOn k 0 l) (spreadOn k 0 l.reverse).reverse

/-- Whether the mean magnitude of the latest 32 samples, newest first, is too small (R126). -/
def State.tooSmall (s : State) (c : Nat) (l : List Rat) : Bool :=
  decide (32 ≤ l.length) &&
    decide (2 * ratSum ((l.take 32).map ratAbs) < s.fld F.RDC_DEF_CTL.DROP_TH c * s.fld F.RDC_GAIN_CTL.AGC_TGT c)

/-- Whether the baseline of the latest 16 samples, newest first, has jumped (R126). -/
def State.jumped (s : State) (c : Nat) (l : List Rat) : Bool :=
  decide (16 ≤ l.length) && decide (16 * (s.fld F.RDC_DEF_CTL.TA_TH c : Rat) < ratAbs (ratSum (l.take 16)))

/-- Whether the decisions of the latest 64 bits, by their errors newest first, are poor (R126). -/
def State.poor (s : State) (c : Nat) (l : List Rat) : Bool :=
  let t : Rat := s.fld F.RDC_GAIN_CTL.AGC_TGT c
  decide (64 ≤ l.length) && decide (4 * (s.fld F.RDC_DEF_CTL.QUAL_TH c : Rat) * t * t < ratSum ((l.take 64).map fun e => e * e))

/-- Extension of flagged stretches in bits (RDC_DEF_CTL). -/
def State.defExt (s : State) (c : Nat) : Nat := s.fld F.RDC_DEF_CTL.DEF_EXT c

/-! ## What a bit is to the loops (R118, R134) -/

/-- The place of the course that follows one (R37). -/
def nextCourse (p : Nat × Nat) : Nat × Nat := courseBegin (packEnd 4 p 1 1)

/-- What the bit at place `x` of segment `m` is to a course that begins at `p`; none when it does not lie in it or in the fill
behind it. -/
def kindIn (p : Nat × Nat) (shift : Int) (m : Nat) (x : Int) : Option BitKind :=
  let l := lastAtom 1 (14553 - p.2)
  let k : Int := if m = p.1 then x - p.2 - shift else if m = p.1 + 1 ∧ l < 292 then x + atomEnd l else -1
  let last : Int := if m = p.1 then atomEnd l else 9764
  if k < 0 then none
  else if last ≤ k then (if (nextCourse p).1 = m then none else some .fill)
  else if k < 48 then some .preamble
  else if k < 80 ∨ (938 ≤ k ∧ k < 970) then some .mark
  else some .body

/-- What the next bit of the segment in progress is: resume field, then by the packing prediction. -/
def RChan.nextKind (r : RChan) : BitKind :=
  match r.heard with
  | [] => .body
  | g :: _ =>
    let j := r.young.length + g.bits.length
    if j < 24 then .preamble
    else if (j : Int) < g.base then .mark
    else match r.pred with
      | none => .body
      | some p => ((r.prev.toList ++ [p, nextCourse p, nextCourse (nextCourse p)]).findSome? fun q =>
        kindIn q r.shift g.num ((j : Int) - g.base)).getD .body

/-! ## Adaptive loops (R133 to R135) -/

/-- A loop's register moved by a fraction of a code, what is less than a code kept beside it (R133); it stays within its range.
DEDUCED: log entry 95. -/
def State.moveLoop (s : State) (c key : Nat) (now lo hi : Int) (d : Rat) (put : State → Int → State) : State :=
  let r := s.rchan c
  let v : Rat := now + r.fracs.get (fun _ => 0) key + d
  let n := max lo (min hi v.floor)
  let rest := if n = v.floor then v - n else 0
  put (s.setRchan c { r with fracs := r.fracs.set (fun _ => 0) key rest }) n

/-- Whether loop values are out of bounds (R135); tap 6 is never adapted. -/
def State.loopsOut (s : State) (c : Nat) : Bool :=
  decide (s.fld F.RDC_GAIN_CTL.GAIN c = 0) || decide (144 ≤ s.fld F.RDC_GAIN_CTL.GAIN c) ||
    (List.range 16).any fun k => k != 6 &&
      (decide (s.fld (F.RDC_FIR_TAP.TAP k) c = 0x800) || decide (s.fld (F.RDC_FIR_TAP.TAP k) c = 0x7FF))

/-- Loop values out of bounds are reloaded, flagged and reported (R135). -/
def State.boundCheck (s : State) (c : Nat) : State :=
  if !s.loopsOut c then s
  else (((s.setRchan c { s.rchan c with fracs := [] }).useZone c).raise F.RDC_STAT.ADAPT_BOUND).report 0x0D01 c

/-- Codes that a loop moves for each ADC code of its error: a positive scale that the spec leaves open (R133).
DESIGN CHOICE: log entry 103. -/
def loopScale (k : Nat) : Rat := if Config.loopScale k = 0 then 1 else ratAbs (Config.loopScale k)

/-- One update of the loops (R133) from a decided bit: its sample, its detector error, and the sixteen samples under the taps. The
equaliser and the asymmetry loop hold over preambles and marks (R134). -/
def State.adaptBit (s : State) (c : Nat) (y err : Rat) (tone acq : Bool) (under : List Rat) : State :=
  let mu (f : Field) : Int := s.fld f
  let agc := gainOf (mu F.RDC_ADAPT_CTL.AGC_MU - if acq then 3 else 0) * loopScale 0
  let s := s.moveLoop c 0 (s.fld F.RDC_GAIN_CTL.GAIN c) 0 144 (agc * (s.fld F.RDC_GAIN_CTL.AGC_TGT c - ratAbs y))
    fun s n => s.setFld F.RDC_GAIN_CTL.GAIN n.toNat c
  let s := s.moveLoop c 1 (s.sfld F.RDC_BIAS_CTL.OFFSET c) (-512) 511 (gainOf (mu F.RDC_ADAPT_CTL.OFS_MU) * loopScale 1 * err)
    fun s n => s.setSfld F.RDC_BIAS_CTL.OFFSET n c
  let s := if tone then s
    else
      let s := s.moveLoop c 2 (s.sfld F.RDC_BIAS_CTL.ASYM c) (-512) 511
        (gainOf (mu F.RDC_ADAPT_CTL.ASYM_MU) * loopScale 2 * err * y * y) fun s n => s.setSfld F.RDC_BIAS_CTL.ASYM n c
      s.each (under.zipIdx.filter fun e => e.2 != 6) fun s e =>
        let sign : Rat := if e.1 < 0 then -1 else if 0 < e.1 then 1 else 0
        s.moveLoop c (3 + e.2) (s.sfld (F.RDC_FIR_TAP.TAP e.2) c) (-2048) 2047
          (-(gainOf (mu F.RDC_ADAPT_CTL.FIR_MU) * loopScale 3 * err * sign)) fun s n => s.setSfld (F.RDC_FIR_TAP.TAP e.2) n c
  s.boundCheck c

/-! ## A bit decided, 96 bits after it was heard (R127, R128, R133, R134) -/

/-- Whether any of the bits about a decided one is flagged: `near` newer ones and `back` older ones. -/
def anyRaw (newer older : List HeardBit) (self : Bool) (near back : Nat) : Bool :=
  self || (newer.take near).any (·.raw) || (older.take back).any (·.raw)

/-- The oldest of the bits still open is decided, and joins its segment in the sample history: flagged stretches are counted and
measured, and released loops move on, unless the bit holds them. `newer` lists the bits after it, nearest first. -/
def State.decideBit (s : State) (c : Nat) (h : HeardBit) (b : Bool) (newer : List HeardBit) : State :=
  let r := s.rchan c
  match r.heard with
  | [] => s
  | g :: gs =>
    let ext := s.defExt c
    let flagged := anyRaw newer g.bits h.raw ext ext
    let hold := anyRaw newer g.bits h.raw ext (ext + s.fld F.RDC_ADAPT_CTL.FRZ_HOLD) || h.kind == .fill
    let under := ((List.range 6).map fun k => (newer.getD k {}).y).reverse ++ h.y :: (g.bits.take 9).map (·.y)
    let past := (g.bits.take 4).map (·.bit)
    let err := h.z - targetOut s.target (b :: past)
    let first := r.acqFirst && h.kind == .preamble
    let acq := decide (0 < r.acqLeft) || first
    let starts := flagged && decide (r.defRun = 0)
    let s := s.setRchan c
      { r with
        heard := { g with bits := { h with bit := b } :: g.bits } :: gs
        defRun := if flagged then r.defRun + 1 else 0
        defEnded := if !flagged && decide (0 < r.defRun) then r.defRun else r.defEnded
        acqLeft := r.acqLeft - 1
        acqFirst := first }
    let s := if starts then s.bump F.RDC_CH_CNT0.DEF_EVT 1 c else s
    let s := s.setFlag F.RDC_CH_STAT.FROZEN (hold || r.inGuard) c
    if hold || !s.flag F.RDC_CH_STAT.ADAPTIVE c then s
    else s.adaptBit c h.y err (h.kind == .preamble || h.kind == .mark) acq under

/-- Every open bit decided by the best survivor, oldest first: `path` gives the decisions of `young`, newest first. -/
def State.decideAll (s : State) (c : Nat) (young : List HeardBit) (path : List Bool) : State :=
  let l := (List.zip young path).reverse
  s.each l.zipIdx fun s e => s.decideBit c e.1.1 e.1.2 ((l.drop (e.2 + 1)).map (·.1))

/-! ## One channel bit (R116 to R118, R126) -/

/-- The latest bits of the sample history, newest first, at least `n` where it holds so many: the windows of R126. -/
def RChan.latest (r : RChan) (n : Nat) : List HeardBit :=
  r.heard.foldl (fun l g => if n ≤ l.length then l else l ++ g.bits.take n) r.young

/-- One interpolated sample: the bit that now stands at the equaliser's main tap goes through equaliser, detector, timing error and
defect conditions, and the phase moves on by one step. -/
def State.hearBit (s : State) (c : Nat) (y : Rat) : State :=
  let r := s.rchan c
  let ahead := y :: r.ahead
  let dff := bitStep s.tapeSpeed 0
  if ahead.length ≤ 6 then s.setRchan c { r with ahead := ahead, phase := phaseOf (r.phase + dff * (1 + r.freq)) }
  else
    let before := r.latest 64
    let here := r.young ++ ((r.heard.head?.map (·.bits)).getD []).take 9
    let ys := ahead.getLastD 0 :: before.map (·.y)
    let z := firAt (s.taps c) (ahead ++ here.map (·.y))
    let kind := r.nextKind
    let det := (detStep s.target s.predictor (if r.det.isEmpty then detStart else r.det) z 0 none).map
      fun v => v.map fun v => { v with path := v.path.take 100 }
    let best := (bestOf det).path
    let d := targetOut s.target (best.take 5)
    let err := z - d
    let e := timingError (z * r.lastD - r.lastZ * d)
    let acq := kind == .preamble
    let kp := gainOf (s.fld (if acq then F.RDC_TIM_CTL.KP_ACQ else F.RDC_TIM_CTL.KP) c)
    let ki := gainOf (s.fld (if acq then F.RDC_TIM_CTL.KI_ACQ else F.RDC_TIM_CTL.KI) c)
    let f := ratClamp (-freqLimit) freqLimit (r.freq + ki * e)
    let drop := if s.tooSmall c ys then r.dropRun + 1 else 0
    let raw := decide (8 ≤ drop) || s.jumped c ys || s.poor c (err :: before.map (·.err))
    let h : HeardBit := { y := ys.headD 0, z := z, err := err, raw := raw, kind := kind }
    let young := h :: r.young
    let r :=
      { r with
        ahead := ahead.take 6
        phase := phaseOf (r.phase + dff * (1 + r.freq) + kp * e)
        freq := f
        clampRun := if ratAbs f = freqLimit then r.clampRun + 1 else 0
        perr := (e :: r.perr).take 256
        lastZ := z
        lastD := d
        det := det
        dropRun := drop
        count := r.count + 1
        young := young.take 96 }
    let s := s.setRchan c r
    if young.length ≤ 96 then s else s.decideBit c (young.getLastD {}) (best.getD 96 false) (young.take 96).reverse

/-- The bits before a leading guard have gone through the equaliser: those still open are decided, and the detector is at rest until
the next resume field. -/
def State.endStretch (s : State) (c : Nat) : State :=
  let r := s.rchan c
  let s := s.decideAll c r.young (bestOf r.det).path
  let r := s.rchan c
  let s := s.setRchan c
    { r with
      heard := match r.heard with
        | [] => []
        | g :: gs => { g with after := r.ahead } :: gs
      young := []
      det := []
      ahead := []
      adc := []
      lastZ := 0
      lastD := 0
      tail := 0 }
  s.setFlag F.RDC_CH_STAT.FROZEN true c

/-- Behind the begin of a leading guard the equaliser takes only the samples that the bits before it still need. -/
def State.tailBit (s : State) (c : Nat) : State :=
  let r := s.rchan c
  if !r.inGuard then s
  else if r.tail ≤ 1 then s.endStretch c
  else s.setRchan c { r with tail := r.tail - 1 }

/-- Channel bits that the latest ADC sample completes, at most `n`. -/
def State.hearBits : Nat → State → Nat → State
  | 0, s, _ => s
  | n + 1, s, c =>
    let r := s.rchan c
    let i := r.phase.floor
    if s.tapeSpeed = 0 ∨ (r.adcCount : Int) < i + 5 ∨ r.heard.isEmpty ∨ (r.inGuard && decide (r.tail = 0)) then s
    else
      let newest := (r.adcCount : Int) - (i + 5)
      let l := ((List.range 8).map fun (k : Nat) => if newest + k < 0 then 0 else r.adc.getD (newest + k).toNat 0).reverse
      State.hearBits n ((s.hearBit c (interpolate (filterOf r.phase) l)).tailBit c) c

/-- One ADC sample (R113): from a leading guard on it joins the stretch for SRV (R119, R178), and it goes to the interpolator but for
battens. -/
def State.hearSample (s : State) (c : Nat) (x : Byte) : State :=
  let r := s.rchan c
  let v := s.srvChan c
  let s := if r.inGuard && decide (v.stretch.length < 8192) then s.setSrvChan c { v with stretch := x.toInt :: v.stretch } else s
  State.hearBits 4 (s.setRchan c { r with adcCount := r.adcCount + 1, adc := (s.corrected c x.toInt :: r.adc).take 16 }) c

/-- The mean square of the phase errors of the last 256 bits (R117); none before that many. -/
def RChan.perrSquare (r : RChan) : Option Rat :=
  if r.perr.length < 256 then none else some (ratSum (r.perr.map fun e => e * e) / 256)

/-- The loop state as the registers show it: f, and the RMS phase error. -/
def State.showLoops (s : State) (c : Nat) : State :=
  let r := s.rchan c
  let s := s.setSfld F.RDC_CH_STAT.FREQ (nearest (2000000 * r.freq)) c
  match r.perrSquare with
  | some m => s.setFld F.RDC_CH_STAT.PERR_RMS (min 4095 (rootOf (16777216 * m))) c
  | none => s

/-- Whether a channel's samples are taken: it runs, no calibration has stopped it, and the ADCs' clock runs (R15, R149). -/
def State.listens (s : State) (c : Nat) : Bool := s.chanOn c && !(s.rchan c).calOff && s.clocked

/-- Bits of a segment heard so far, the open ones among them when it is the one in progress. -/
def RChan.bitsOf (r : RChan) (g : HeardSeg) : List HeardBit :=
  (if r.heard.head?.any (·.num == g.num) then r.young else []) ++ g.bits

/-- A stretch of a list from a place on, which may lie before its begin; none for what is not there. -/
def cut {α : Type} (l : List α) (i : Int) (n : Nat) : List (Option α) :=
  let before := min n (-i).toNat
  let some_ := ((l.drop i.toNat).take (n - before)).map some
  List.replicate before none ++ some_ ++ List.replicate (n - before - some_.length) none

/-- A segment of the sample history by its number. -/
def RChan.segNo (r : RChan) (n : Nat) : Option HeardSeg := r.heard.find? fun g => g.num == n

/-- Decided bits with their flags (R127), from a place of a segment on, counted from the end of its resume mark. -/
def RChan.look (r : RChan) (ext n : Nat) (j : Int) (len : Nat) : List (Option (HeardBit × Bool)) :=
  match r.segNo n with
  | none => List.replicate len none
  | some g =>
    let all := r.bitsOf g
    let flags := (extendFlags ext (all.map (·.raw))).drop (all.length - g.bits.length)
    cut (List.zip g.bits flags).reverse (g.base + j) len

/-- The ADC samples that a channel has taken since its last command. -/
def State.hear (s : State) (c : Nat) (adc : List Byte) : State :=
  if adc.isEmpty || !s.listens c then s else (s.each adc fun s x => s.hearSample c x).showLoops c

end Sys2Proof.Machine
end

