-- ==== Sys2Proof/Machine/WriteChannel.lean ====
section
/-!
DEFINITION. The write channel (R151 to R177): gates, write inhibit, the end of a write, and the sideband to the drivers.
-/
namespace Sys2Proof.Machine

/-! ## The writer bit clock (R152, R153) -/

/-- Writer bits in a cell (R35, R152). -/
def cellBits : Rat := 1511808 / 100

/-- Writer bits at an ADC sample count, extrapolated from the latest update (R152). -/
def State.bitsAt (s : State) (t : Rat) : Rat :=
  let d := t - s.wrc.clockTime
  s.wrc.clockBits + s.wrc.clockRate * d + s.wrc.clockAcc * d * d / 2

/-- Writer bits now. -/
def State.nowBits (s : State) : Rat := s.bitsAt s.now

/-- Whether a channel has batten lock (R154). -/
def State.battenLock (s : State) (c : Nat) : Bool :=
  if c < 32 then (s.fld F.WRC_LOCK_LO.LOCK).testBit c else (s.fld F.WRC_LOCK_HI.LOCK).testBit (c - 32)

/-- Whether any channel has batten lock. -/
def State.anyLock (s : State) : Bool := s.fld F.WRC_LOCK_LO.LOCK != 0 || s.fld F.WRC_LOCK_HI.LOCK != 0

/-- The clock at a motion tick (R152): the change of its rate follows the acceleration that MOT measured; with no channel in lock there
is no cell to measure, and the rate is that of the tape speed.
DEDUCED: log entry 97. -/
def State.clockTick (s : State) : State :=
  let t : Rat := s.now
  let perSample (v : Rat) : Rat := 3937 * v / 40000
  let acc := perSample ((ratAbs s.tapeSpeed - ratAbs s.mot.speedWas) / 8000)
  let rate := if s.anyLock then s.wrc.clockRate + s.wrc.clockAcc * (t - s.wrc.clockTime) else perSample (ratAbs s.tapeSpeed)
  { s with wrc := { s.wrc with clockBits := s.bitsAt t, clockTime := t, clockRate := rate, clockAcc := acc } }

/-- The distance from reader to writer in writer bits, for the wrap's direction (R153). -/
def State.gapBits (s : State) : Rat :=
  (if s.fld F.MOT_WRAP.W % 2 = 0 then s.fld F.WRC_GAP_FWD.GAP else s.fld F.WRC_GAP_REV.GAP : Nat) / 8

/-- A gate-on point and the room behind it (R153, R155): the point is the writer's next one from bit `least` on by the channel's batten
event `ago` events back, the next leading guard follows from its latest.
DEDUCED: log entry 97. -/
def State.gatePoint (s : State) (w : WChan) (ago : Nat) (least : Rat) : Rat × Rat :=
  let a := w.anchors.getD ago 0
  let j : Int := max 1 (-((-((least - a + s.gapBits - 496) / cellBits)).floor))
  let start := a + j * cellBits - s.gapBits
  let b := w.anchors.getD 0 0
  let i : Int := -((-((start + cellBits / 2 - b + s.gapBits) / cellBits)).floor)
  (start + 496, b + i * cellBits - s.gapBits - 24 - (start + 496))

/-! ## Writer links (R157 to R159) -/

/-- Eight bits of a list as a number, the earliest bit lowest. -/
def eightBits (l : List Bool) : Nat := (l.take 8).foldr (fun b n => 2 * n + b.toNat) 0

/-- The payload of a data block (R157): the next eight bits of each lane. -/
def lanePayload (lanes : List (List Bool)) : BitVec 64 := BitVec.ofNat 64 (lanes.foldr (fun l n => 256 * n + eightBits l) 0)

/-- `n` data blocks from the lanes of a link, with the scrambler and the lanes they leave. -/
def dataBlocks : Nat → BitVec 58 → List (List Bool) → List (BitVec 66) × BitVec 58 × List (List Bool)
  | 0, r, lanes => ([], r, lanes)
  | n + 1, r, lanes =>
    let (b, r) := linkBlock true (lanePayload lanes) r
    let (l, r, lanes) := dataBlocks n r (lanes.map (·.drop 8))
    (b :: l, r, lanes)

/-- `n` control blocks of a type. -/
def controlBlocks : Nat → BitVec 58 → Byte → List (BitVec 66) × BitVec 58
  | 0, r, _ => ([], r)
  | n + 1, r, type =>
    let (b, r) := linkBlock false (type.zeroExtend 64) r
    let (l, r) := controlBlocks n r type
    (b :: l, r)

/-- Control blocks on every link. -/
def State.sendControl (s : State) (n : Nat) (type : Byte) : State :=
  s.each (List.range 8) fun s k =>
    let (l, r) := controlBlocks n (s.wrc.scram.get (fun _ => 0) k) type
    { s with wrc := { s.wrc with scram := s.wrc.scram.set (fun _ => 0) k r } }.emit (.linkBlocks k l)

/-- Data blocks on every link; a lane with nothing to send carries zeros (R158). -/
def State.sendData (s : State) (n : Nat) : State :=
  s.each (List.range 8) fun s k =>
    let cs := (List.range 8).map fun l => 8 * k + l
    let (l, r, lanes) := dataBlocks n (s.wrc.scram.get (fun _ => 0) k) (cs.map fun c => (s.wchan c).lane)
    let s := s.each (List.zip cs lanes) fun s e => s.setWchan e.1 { s.wchan e.1 with lane := e.2 }
    { s with wrc := { s.wrc with scram := s.wrc.scram.set (fun _ => 0) k r } }.emit (.linkBlocks k l)

/-- Idle blocks that WSYN's start asks for before the first gate-on (R159). -/
def idleNeed : Nat := 4096

/-- The blocks of the links since they were last looked at, one for eight writer bits (R157, R159, R171): inhibit blocks while INHIBIT
is 1; idle blocks while no write is in progress, before the first gate-on of a write, after a wrap-end block and during a backhitch;
otherwise data.
DEDUCED: log entry 97. -/
def State.sendLinks (s : State) : State :=
  let n := ((s.nowBits - s.wrc.linkBits) / 8).floor.toNat
  let writing := s.flag F.WRC_STAT.WRITING
  let s := { s with wrc := { s.wrc with linkBits := s.wrc.linkBits + 8 * n, idleSent := if writing then s.wrc.idleSent else 0 } }
  if n = 0 then s
  else if s.flag F.WRC_STAT.INHIBIT then s.sendControl n 0x2D
  else if !writing then s.sendControl n 0x1E
  else if s.wrc.idleSent < idleNeed || s.wrc.announced.isNone || s.mot.stopped then
    { s with wrc := { s.wrc with idleSent := s.wrc.idleSent + n } }.sendControl n 0x1E
  else s.sendData n

/-- A control block on every link in the place of the next block, behind what the links have sent until now (R157, R171). -/
def State.sendBlock (s : State) (type : Byte) : State :=
  let s := s.sendLinks
  { s with wrc := { s.wrc with linkBits := s.wrc.linkBits + 8 } }.sendControl 1 type

/-- A gate-on command (R158): marker, D, L, and the XOR of the four bytes of D and L. -/
def gateCommand (d l : Nat) : List Byte :=
  let b := leBytes 2 d ++ leBytes 2 l
  0x5A :: b ++ [b.foldl (· ^^^ ·) 0]

/-- Zero bits that bring a lane to the next block's byte (R158). -/
def WChan.lanePad (w : WChan) : Nat := (8 - w.lane.length % 8) % 8

/-- The writer bit that follows a gate-on command given to a lane now (R157, R158): behind the bits that have left the links, what waits
on the lane, and the command's six bytes. -/
def State.commandEnd (s : State) (w : WChan) : Rat := s.wrc.linkBits + ((w.lane.length + w.lanePad + 48 : Nat) : Rat)

/-- A command, the bits up to the gate-on point and the bits written join a lane, aligned to its bytes (R157, R158). The spec names no
order of bits within a command's bytes; the model sends the most significant first.
DESIGN CHOICE: log entry 113. -/
def WChan.queueLane (w : WChan) (d : Nat) (cmd : List Byte) (bits : List Bool) : WChan :=
  { w with lane := w.lane ++ List.replicate w.lanePad false ++ msbBits cmd ++ List.replicate d false ++ bits }

/-! ## Gates (R155, R158, R164, R172) -/

/-- A course whose gate was off fails at once (R164); before a stop, a course of the last segment is judged from the rewrite
alone (R214). -/
def State.failGated (s : State) (x : CourseOut) : State :=
  if x.gated || (x.tail && s.mot.stopPending) then s else s.failCourse x

/-- Of the courses under a channel's gate, how many are whole on tape after `n` written bits. -/
def WChan.laidBy (w : WChan) (n : Nat) : Nat := (w.ends.filter fun e => decide (e ≤ n)).length

/-- The courses of the segment under a channel's gate that lose atoms when it drops after `n` written bits. -/
def WChan.underGate (w : WChan) (n : Nat) : List CourseOut :=
  ((w.awaiting.drop (w.awaiting.length - w.curDone)) ++ (if w.curSplit then w.queue.take 1 else [])).drop (w.laidBy n)

/-- The channel with its gate closed after `n` written bits and the courses that lose atoms marked as failed. -/
def WChan.dropped (w : WChan) (n : Nat) : WChan :=
  let stand := w.awaiting.length - w.curDone + min w.curDone (w.laidBy n)
  let q := if w.curSplit && decide (w.laidBy n ≤ w.curDone) then
      match w.queue with
      | x :: q => { x with gated := true } :: q
      | [] => []
    else w.queue
  { w with
    gateOpen := false
    curDone := 0
    curSplit := false
    ends := []
    laid := []
    awaiting := w.awaiting.take stand ++ (w.awaiting.drop stand).map fun x => { x with gated := true }
    queue := q }

/-- A segment ends after `n` written bits before it is complete: the courses that lose atoms fail at once (R164, R172). -/
def State.failSegment (s : State) (c n : Nat) : State :=
  let w := s.wchan c
  ((s.setWchan c (w.dropped n)).each (w.underGate n) State.failGated).writingFlag

/-- Bits that a channel's writer has laid down since its gate-on point. -/
def State.writtenBits (s : State) (w : WChan) : Nat := min w.len (s.nowBits - w.gateAt).floor.toNat

/-- A truncated segment is counted, and no course with an atom in it stands (R155). -/
def State.countTrunc (s : State) (w : WChan) : State :=
  if w.len < 14593 then (s.raise F.WRC_STAT.TRUNC).bump F.WRC_CNT1.TRUNC_CNT else s

/-- A gate drops before its segment is complete (R155, R164, R172): what is written stays on tape.
DEDUCED: log entry 38. -/
def State.dropGate (s : State) (c : Nat) : State :=
  let w := s.wchan c
  if !w.gateOpen then s
  else
    let n := s.writtenBits w
    (((s.emit (.gateOff c)).emit (.segment c (w.laid.take n))).countTrunc w).failSegment c (if w.len < 14593 then 0 else n)

/-- Every gate drops, and what waits for the lanes is discarded (R157, R171); what has left the links by now has been written. -/
def State.dropGates (s : State) : State :=
  s.sendLinks.each (List.range 64) fun s c => (fun s => s.setWchan c { s.wchan c with lane := [] }) (s.dropGate c)

/-- Written bits at the end of each piece of a segment, the resume field before them (R35). -/
def pieceEnds : Nat → List (CourseOut × Nat × Nat) → List Nat
  | _, [] => []
  | n, p :: ps =>
    let n := n + (atomEnd p.2.2 - atomEnd (p.2.1 - 1))
    n :: pieceEnds n ps

/-- FMT feeds a segment's courses to WRC: each use of a yealm buffer verifies its tiles (R252). Marked bytes never go to tape (R255): the
course is left unwritten, and its WRITE ends POISON.
DESIGN CHOICE: log entry 100. -/
def State.feed (s : State) : List (CourseOut × Nat × Nat) → State × List (CourseOut × Nat × Nat)
  | [] => (s, [])
  | (x, a, l) :: ps =>
    let (s, _, m) := if x.kind = .orig ∨ x.kind = .letCopy then
        s.bufRead (taHandle x.addr) (taOff x.addr + courseOff x.n x.g x.i) 1024
      else (s, [], false)
    let s := match m, s.jobOf x.job with
      | true, some j => s.loseYealm j St.POISON
      | _, _ => s
    let (s, ps) := State.feed s ps
    (s, (if m then { x with kind := .unwritten } else x, a, l) :: ps)

/-- A segment laid out on a channel (R37): its gate opens for `len` bits at a gate-on point, `lead` bits behind the command, or
stays off without batten lock, under inhibit or in the dark group (R164, R176). -/
def State.laySegment (s : State) (c : Nat) (w : WChan) (len lead : Nat) (point : Rat) : State :=
  let (ps, q, a) := packSeg 4 0 w.queue w.atom
  let (s, ps) := s.resolveAll ps
  let (s, ps) := s.feed ps
  let split := decide (a ≠ 1)
  let q := if split then
      match ps.getLast?, q with
      | some p, _ :: r => p.1 :: r
      | _, r => r
    else q
  let written := ps.any fun p => p.1.kind != .unwritten
  let open_ := written && s.battenLock c && !s.flag F.WRC_STAT.INHIBIT && s.darkGroup != some (c / 4)
  let tail := q.isEmpty
  let done := (ps.filter fun p => p.2.2 == 292 && p.1.kind != .unwritten).map fun p => { p.1 with tail := tail }
  let ends := (List.zip ps (pieceEnds 40 ps)).filter fun e => e.1.2.2 != 292 || e.1.1.kind != .unwritten
  let cmd := gateCommand lead len
  let bits := if open_ then (s.segmentBits ps).take len else []
  let s := if open_ then s.emit (.gateOnCommand c cmd) else s
  let w :=
    { w with
      queue := q
      atom := a
      seg := w.seg + 1
      gateOpen := true
      len := len
      awaiting := w.awaiting ++ done
      curDone := done.length
      curSplit := split
      ends := ends.map (·.2)
      laid := bits
      gateAt := point
      rewind := if tail then some (ps.map (·.1), w.atom) else none }
  if open_ then (s.setWchan c (w.queueLane lead cmd bits)).writingFlag else (s.setWchan c w).failSegment c 0

/-- GATE_ON (R153, R155, R158, R159, R164, R172, R210): for a channel's gate-on point, predicted from the batten event `ago` events back,
the next segment is packed and its command given to the driver. The point is the next one that lies 64 lane bits or more behind the
command, to a whole writer bit. Without batten lock, under inhibit or in the dark
group the gate stays off and the segment's courses fail. No gate-on point comes before the direction frame of the wrap (R151) and the
idle blocks of R159.
DEDUCED: log entry 38. -/
def execGateOn (c : Chan) (ago : Fin 4) (s : State) : Res :=
  let w := s.wchan c
  if !s.clocked || w.gateOpen || w.queue.isEmpty || s.mot.stopped || s.wrc.announced != some s.wrc.wrap ||
      decide (s.wrc.idleSent < idleNeed) || !s.dataSpeed then .next s
  else
    let s := s.sendLinks
    let w := s.wchan c
    let ready := s.commandEnd w
    let (point, room) := s.gatePoint w ago (ready + 64)
    let s := if 14603 < room then s.bump F.WRC_CNT1.SLACK_HI else s
    let lead := (point - ready).floor.toNat
    .next (s.laySegment c w (min 14593 room.floor.toNat) lead (ready + (lead : Rat)))

/-- GATE_OFF (R155): after L bits the gate closes; a truncated segment is counted and its courses fail. -/
def execGateOff (c : Chan) (s : State) : Res :=
  let w := s.wchan c
  if !s.clocked || !w.gateOpen then .next s
  else
    let s := (s.emit (.gateOff c)).emit (.segment c (w.laid.take w.len))
    if w.len < 14593 then .next ((s.countTrunc w).failSegment c 0)
    else .next (s.setWchan c { w with gateOpen := false, curDone := 0, curSplit := false, ends := [], laid := [] }).writingFlag

/-- WRAP_END_BLOCK (R157): every gate drops, and the lanes stay idle until the next direction frame. -/
def execWrapEndBlock (s : State) : Res :=
  whileClocked s <|
  let s := (s.sendBlock 0x4B).dropGates
  .next { s with wrc := { s.wrc with announced := none } }

/-! ## Sideband (R160 to R162) -/

/-- A sideband frame: header byte, payload and CRC-16 (R160). -/
def sbFrame (link : Nat) (broadcast : Bool) (type : Nat) (payload : List Byte) : List Byte :=
  let b := BitVec.ofNat 8 (link * 32 + broadcast.toNat * 16 + type) :: payload
  b ++ (leBytes 2 (crc16 b).toNat).reverse

/-- A 6-bit signed code as a byte. -/
def sbSigned (x : Nat) : Byte := (BitVec.ofNat 6 x).signExtend 8

/-- The payload of a table frame from the latched values (R160, R161). -/
def State.sbPayload (s : State) (link type : Nat) : List Byte :=
  (List.range 8).flatMap fun l =>
    let c := 8 * link + l
    if type = 1 then
      let v := s.wrc.iwLatch.get (fun _ => 0) c
      [BitVec.ofNat 8 (F.WRC_IW.IW.get v), BitVec.ofNat 8 (F.WRC_IW.OS_AMP.get v + 16 * F.WRC_IW.OS_DUR.get v)]
    else
      let v := s.wrc.pcLatch.get (fun _ => 0) c
      [sbSigned (F.WRC_PC.PC1.get v), sbSigned (F.WRC_PC.PC2.get v), sbSigned (F.WRC_PC.PC3.get v)]

/-- The first waiting sideband frame is sent; with none, SB_BUSY clears. -/
def State.sbSend (s : State) : State :=
  match s.wrc.sbQueue with
  | [] => s.setFlag F.WRC_STAT.SB_BUSY false
  | (link, type, _) :: _ =>
    (s.setFlag F.WRC_STAT.SB_BUSY true).emit (.sideband (sbFrame link false type (s.sbPayload link type)))

/-- A write of 1 to SB_GO (R161): values latched and two frames for each link of LINK_MASK, or SB_ERR while frames are in
progress. -/
def State.sbStart (s : State) : State :=
  if s.flag F.WRC_STAT.SB_BUSY then s.raise F.WRC_STAT.SB_ERR
  else
    let links := (List.range 8).filter fun l => (s.fld F.WRC_SB_CTL.LINK_MASK).testBit l
    let chans := links.flatMap fun l => (List.range 8).map fun k => 8 * l + k
    let latch (f : Field) (m : SMap W32) : SMap W32 := chans.foldl (fun m c => m.set (fun _ => 0) c (s.reg (f.addr c))) m
    ({ s with
        wrc := { s.wrc with
          iwLatch := latch F.WRC_IW.IW s.wrc.iwLatch
          pcLatch := latch F.WRC_PC.PC1 s.wrc.pcLatch
          sbQueue := links.flatMap fun l => [(l, 1, 0), (l, 2, 0)] } }).sbSend

/-- A link whose frame failed three times (R162). -/
def State.sbFailed (s : State) (link : Nat) : State := (s.raise F.WRC_STAT.SB_ERR).report 0x0C01 link

/-- SIDEBAND_REPLY (R160, R162): the status byte of the frame in progress, or its absence; a frame not accepted is sent up to
three times. -/
def execSidebandReply (link : Fin 8) (reply : Option Byte) (s : State) : Res :=
  whileClocked s <|
  match s.wrc.sbQueue with
  | [] => .next s
  | (l, type, tries) :: rest =>
    if l ≠ link.val then .next s
    else if reply = some 0 then .next { s with wrc := { s.wrc with sbQueue := rest } }.sbSend
    else if tries < 2 then .next { s with wrc := { s.wrc with sbQueue := (l, type, tries + 1) :: rest } }.sbSend
    else .next ({ s with wrc := { s.wrc with sbQueue := rest } }.sbSend.sbFailed l)

/-- SIDEBAND_STATUS_READ (R160, R162): a type 0x4 frame; the reply is its status byte, four bytes and their CRC-16. A third
failure in a row is a failed link.
DEDUCED: log entry 39. -/
def execSidebandStatusRead (link : Fin 8) (reply : List Byte) (s : State) : Res :=
  whileClocked s <|
  let s := s.emit (.sideband (sbFrame link false 4 []))
  let tries (s : State) (n : Nat) : State := { s with wrc := { s.wrc with statTries := s.wrc.statTries.set (fun _ => 0) link n } }
  let body := bytesAt reply 1 4
  if reply.length = 7 ∧ natAt reply 0 1 = 0 ∧ (bytesAt reply 5 2).reverse = leBytes 2 (crc16 body).toNat then
    let s := (tries s 0).setFld F.WRC_SB_STAT.FLAGS (natAt body 0 1) link
    .next (s.setFld F.WRC_SB_STAT.TEMP (natAt body 1 1) link)
  else
    let n := s.wrc.statTries.get (fun _ => 0) link + 1
    if n < 3 then .next (tries s n) else .next ((tries s 0).sbFailed link)

/-- SIDEBAND_DIRECTION (R151, R160): the broadcast direction frame of the wrap that MOT_WRAP gives. R160 gives address bits [7:5] of a
frame as the link number, which a broadcast has none of; they are sent 0.
DESIGN CHOICE: log entry 98. -/
def execSidebandDirection (s : State) : Res :=
  whileClocked s <|
  let w := s.fld F.MOT_WRAP.W
  let s := s.emit (.sideband (sbFrame 0 true 3 [BitVec.ofNat 8 (w % 2)]))
  .next { s with wrc := { s.wrc with announced := some w } }

/-! ## Write inhibit (R170 to R175) -/

/-- Entry into write inhibit: the flag and its cause, an inhibit block on every link, and every gate dropped (R170, R171). -/
def State.inhibit (s : State) (cause : Field) : State :=
  if s.flag F.WRC_STAT.INHIBIT then s
  else
    let s := ((s.sendLinks.raise F.WRC_STAT.INHIBIT).raise cause).bump F.WRC_CNT1.INH_EVT
    (s.sendBlock 0x2D).dropGates

/-- Whether an enabled shock or accelerometer trigger holds (R170). -/
def State.triggered (s : State) : Bool :=
  (s.flag F.WRC_INH_CTL.SHOCK_EN && s.wrc.shockLow) || (s.flag F.WRC_INH_CTL.ACC_EN && s.wrc.accHigh)

/-- The conditions of R173. -/
def State.inhibitOver (s : State) : Bool :=
  !s.flag F.WRC_CTL.INH_SW && !s.triggered && decide (max 1 (s.fld F.WRC_INH_CTL.RESUME_CNT) ≤ s.wrc.clearSamples)

/-- INHIBIT clears where R173 allows. -/
def State.tryClear (s : State) : State := if s.inhibitOver then s.setFlag F.WRC_STAT.INHIBIT false else s

/-- The same where AUTO_RESUME asks for it. -/
def State.autoClear (s : State) : State := if s.flag F.WRC_CTL.AUTO_RESUME then s.tryClear else s

/-- A trigger holds: the count of clear samples starts again (R173). -/
def State.noClear (s : State) : State := { s with wrc := { s.wrc with clearSamples := 0 } }

/-- A trigger that holds when it is enabled, or over a start, enters write inhibit (R170). -/
def State.checkTriggers (s : State) : State :=
  let s := if s.flag F.WRC_INH_CTL.SHOCK_EN && s.wrc.shockLow then s.noClear.inhibit F.WRC_STAT.INH_SHOCK else s
  if s.flag F.WRC_INH_CTL.ACC_EN && s.wrc.accHigh then s.noClear.inhibit F.WRC_STAT.INH_ACC else s

/-- SHOCK_INPUT (R170): the level of SHOCK_N; low for 50 ns or longer is a trigger. -/
def execShockInput (low : Bool) (s : State) : Res :=
  let fell := low && !s.wrc.shockLow
  let s := { s with wrc := { s.wrc with shockLow := low } }
  let s := if fell then s.bump F.MOT_CNT.SHOCK_CNT else s
  .next (if low && s.flag F.WRC_INH_CTL.SHOCK_EN then s.noClear.inhibit F.WRC_STAT.INH_SHOCK else s)

/-- A write to INH_SW (R170, R173). -/
def State.setInhSw (s : State) (v : Bool) : State :=
  let s := s.setFlag F.WRC_CTL.INH_SW v
  if v then s.inhibit F.WRC_STAT.INH_SWS else s.autoClear

/-! ## The end of a write (R174, R175) -/

/-- A write channel with nothing to write. -/
def WChan.emptied (w : WChan) : WChan := { goodBattens := w.goodBattens, anchors := w.anchors, anchorTime := w.anchorTime }

/-- What the end of a write leaves of the program set's groups (R67, R174): where any of their yealms may lie on tape unsealed they fail;
otherwise the next group resumes after the last seal. -/
def State.endGroups (s : State) : State :=
  if s.hst.closed.isEmpty && s.hst.group.layout.isEmpty then { s with hst := { s.hst with group := s.resumeGroup } }
  else s.failFrom ((s.hst.closed.head?.map ClosedGroup.seq).getD s.openGroup) St.NOT_READY

/-- The write ends at once (R174): every WRITE and SEAL not yet done ends NOT_READY, and packing is taken up anew by R67. -/
def State.endWrite (s : State) : State :=
  let s := s.each (List.range 64) fun s c =>
    let w := s.wchan c
    if w.gateOpen then ((s.emit (.gateOff c)).emit (.segment c (w.laid.take (s.writtenBits w)))).countTrunc w else s
  let s := s.each s.fmt.jobs fun s j => s.finish j.cmd St.NOT_READY j.inst j.letCount
  let s := s.each s.fmt.seals fun s j => (s.sealFail j.cmd St.NOT_READY).finish j.cmd St.NOT_READY
  let s := s.each (List.range 64) fun s c => s.setWchan c (s.wchan c).emptied
  let s := { s with
    fmt := { s.fmt with jobs := [], seals := [], passed := [], quadStarts := [] }
    mot := { s.mot with stopPending := false } }
  let s := s.endGroups
  { s with wrc := { s.wrc with placed := false, resume := [] } }.writingFlag

/-- A write of 0 to RUN (R174). -/
def State.wrcOff (s : State) : State :=
  let s := s.setFlag F.WRC_CTL.RUN false
  if s.flag F.WRC_STAT.WRITING then (s.sendBlock 0x2D).endWrite else s.endWrite

/-- INHIBIT_TIMEOUT (R175): INHIBIT has held while the tape travelled 64.0 mm. -/
def execInhibitTimeout (s : State) : Res := whileClocked s <| .next (if s.flag F.WRC_STAT.INHIBIT then s.wrcOff else s)

end Sys2Proof.Machine
end

