-- ==== Sys2Proof/Machine/Formatter.lean ====
section
/-!
DEFINITION. The ECC formatter on the write side: ENCODE, WRITE and SEAL (R319 to R321), the start of yealms and seals on tape
(R12, R39, R55, R62), verify (R164 to R169) and the UF1 locator (R71).
-/
namespace Sys2Proof.Machine

/-! ## ENCODE (R101, R103, R319, R320) -/

/-- Bytes of a yealm buffer (R319). -/
def yealmBytes (n : Nat) : Nat := 245760 * n

/-- The C2 parity of group g from the data courses' bytes: positions 224 to 239, 1,024 bytes each (R101). -/
def c2Parity (n : Nat) (data : List Byte) (g : Nat) : List (List Byte) :=
  let rows := (List.range 224).map fun i => bytesAt data (courseOff n g i) 1024
  let cols := (List.range 1024).map fun b => rsParity 16 (rows.map fun r => r.getD b 0)
  (List.range 16).map fun p => cols.map fun c => c.getD p 0

/-- The 16 parity positions of a yealm in buffer order, from its data positions (R319). -/
def yealmParity (n : Nat) (data : List Byte) : List Byte :=
  let groups := (List.range n).map (c2Parity n data)
  (List.range 16).flatMap fun p => groups.flatMap fun g => g.getD p []

/-- The share of a symbol of yealm m in the two C3 parities: x^(15 − m) modulo the generator (R103). -/
def c3Share (m : Nat) : Byte × Byte :=
  if m = 14 then (1, 0) else if m = 15 then (0, 1)
  else
    let p := rsParity 2 ((List.range 14).map fun k => if k = m then 1 else 0)
    (p.getD 0 0, p.getD 1 0)

/-- Offset of parity yealm 16r + 15 in a C3 accumulator (R319). -/
def c3Half : Nat := 0x1000000

/-- Bytes added to pieces that stand in a row, each keeping its mark. -/
def addPieces : List (List Byte × Bool) → List Byte → List (List Byte × Bool)
  | [], _ => []
  | (b, m) :: ps, l => (xorBytes b (l.take b.length), m) :: addPieces ps (l.drop b.length)

/-- A yealm added into one half of the accumulator (R103, R319): each tile there keeps the mark its own bytes have (R255). -/
def State.accumulate (s : State) (acc : W64) (first : Bool) (c : Byte) (l : List Byte) : State × Bool :=
  let l := l.map (gfMul c)
  if first then (s.taWrite acc l false, false)
  else
    let (s, _, m) := s.taRead acc l.length
    (s.taWritePieces acc (addPieces (s.taPieces acc l.length) l), m)

/-- An ENCODE is done: a yealm buffer that pace counts (R211). -/
def State.encoded (s : State) : State := { s with mot := { s.mot with ryNow := s.mot.ryNow + 1 } }

/-- ENCODE over checked ranges: C2 parity written, and the yealm's 240 positions added into the C3 accumulator. -/
def State.encodeYealm (s : State) (c : Cmd) (n : Nat) : State :=
  let arg := dArg c.desc
  let a := dA c.desc
  let (s, data, m) := s.taRead a (229376 * n)
  if m then s.finish c St.POISON 0 0 false
  else
    let par := yealmParity n data
    let s := s.taWrite (mkTa (taHandle a) (taOff a + 229376 * n)) par false
    if arg.testBit 8 then s.encoded.finish c St.OK
    else
      let b := dB c.desc
      let (c0, c1) := c3Share (dC c.desc % 16)
      let (s, m0) := s.accumulate b (arg.testBit 7) c0 (data ++ par)
      let (s, m1) := s.accumulate (mkTa (taHandle b) (taOff b + c3Half)) (arg.testBit 7) c1 (data ++ par)
      if m0 || m1 then s.finish c St.POISON 0 0 true else s.encoded.finish c St.OK

/-- Whether a half of the C3 accumulator that ENCODE adds to delivers a marked byte in TV3200 mode (R256). -/
def State.accStops (s : State) (c : Cmd) (n : Nat) : State × Bool :=
  if (dArg c.desc).testBit 8 || (dArg c.desc).testBit 7 || !s.busErr then (s, false)
  else
    let b := dB c.desc
    let (s, _, m0) := s.taRead b (yealmBytes n)
    let (s, _, m1) := s.taRead (mkTa (taHandle b) (taOff b + c3Half)) (yealmBytes n)
    (s, m0 || m1)

/-- The check of one half of a C3 accumulator: class 7 (R319), then the range.
DESIGN CHOICE: log entry 106. -/
def State.accCheck (s : State) (c : Cmd) (a : W64) (len : Nat) : Option W16 :=
  if hClass (taHandle a) ≠ 7 then some St.BAD_PARAM else s.engCheckW c a len

/-- ENCODE (R319, R320): N is checked before anything else. -/
def execEncode (i : Nat) (s : State) : Res :=
  runCmd 2 i 1 s fun c s =>
    let arg := dArg c.desc
    let n := arg % 128
    let b := dB c.desc
    if (n ≠ 16 ∧ n ≠ 60 ∧ n ≠ 64) ∨ (n = 16 ∧ !arg.testBit 8) then s.finish c St.BAD_PARAM
    else match firstBad ([s.yealmCheck c (dA c.desc) (yealmBytes n) true] ++
        (if arg.testBit 8 then []
         else [s.accCheck c b (yealmBytes n), s.accCheck c (mkTa (taHandle b) (taOff b + c3Half)) (yealmBytes n)])) with
      | some e => s.finish c e
      | none =>
        let (s, stops) := s.accStops c n
        if stops then s.finish c St.POISON else s.encodeYealm c n

/-! ## WRITE (R12, R48, R67, R163, R319, R320) -/

/-- Whether WRC may start a write (R163): RUN, adaptive mode, every channel outside the dark group enabled, and boot step S8
done (R467). -/
def State.mayWrite (s : State) : Bool :=
  s.flag F.WRC_CTL.RUN && s.fld F.RDC_CFG.MODE == 1 && (s.activeList.all fun c => s.flag F.RDC_CH_CTL.EN c) &&
    (s.fld F.BOOT_STAT.DONE).testBit 8

/-- The dark selector in force and the dark table with its entry (R47, R48); none when all seven entries are in use. -/
def State.selector (s : State) : Option (Nat × List Byte) :=
  match s.darkGroup with
  | none => some (0, s.fmt.darkTable)
  | some g =>
    let find (v : Byte) : Option Nat := ((List.range 7).map (· + 1)).find? fun k => s.fmt.darkTable.getD k 0 == v
    match find (BitVec.ofNat 8 g) with
    | some k => some (k, s.fmt.darkTable)
    | none => match find 0xFF with
      | some k => some (k, s.fmt.darkTable.set k (BitVec.ofNat 8 g))
      | none => none

/-- Whether every course laid out so far is written: the wrap may end. -/
def State.drained (s : State) : Bool := s.activeList.all fun c => (s.wchan c).queue.isEmpty && !(s.wchan c).gateOpen

/-- Packing is taken up in the second segment after the one in which the last valid seal ends, or at the first segment of wrap 0 on
a cartridge without one (R38, R66, R67). -/
def State.takeUp (s : State) : State :=
  if s.wrc.placed then s
  else match s.fmt.chain.getLast? with
    | none =>
      let s := s.each (List.range 64) fun s c => s.setWchan c (s.wchan c).emptied
      { s with wrc := { s.wrc with placed := true, wrap := 0 } }
    | some r =>
      let s := s.each (List.range 64) fun s c =>
        s.setWchan c { (s.wchan c).emptied with seg := placeSeg (placeOn r.ends c) + 2 }
      { s with wrc := { s.wrc with placed := true, wrap := placeWrap (placeOn r.ends 64) } }

/-- After a failed group packing is to be taken up anew once the WRITEs and SEALs accepted before, and the groups before it, have
ended; what has passed verify of that group counts no more (R67, R339). -/
def State.resumeDue (s : State) : State :=
  match s.wrc.resume with
  | [] => s
  | (n, q) :: rest =>
    if s.drained && s.hst.closed.all (fun g => decide (q < g.seq)) && s.fmt.jobs.all (fun j => decide (n ≤ j.cmd.seq)) &&
        s.fmt.seals.all (fun j => decide (n ≤ j.cmd.seq)) then
      { s with
        fmt := { s.fmt with passed := [], ended := [] }
        wrc := { s.wrc with placed := false, resume := rest } }.takeUp
    else s

/-- Formatting begins (R66, R69): the format yealm lies at LPOS 6,500 of wrap 0, and what the cartridge held is absent. -/
def State.atFormat (s : State) : State :=
  let s := s.each (List.range 64) fun s c => s.setWchan c (s.wchan c).emptied
  { s with
    hst := { s.hst with records := [], group := {}, closed := [], sealing := [], index := [], quadNext := quadBase + 1 }
    wrc := { s.wrc with placed := true, wrap := 0, resume := [] }
    fmt := { s.fmt with chain := [], index := (0, 0, 0), copies := [], decoded := [], waiting := [], quadStarts := [] } }

/-- The format record (R69) from what differs between cartridges: its flags, serial (16 bytes), format time, and formatting device
(16 bytes). -/
def formatRecord (flags : Nat) (serial : List Byte) (time : Nat) (device : List Byte) : List Byte :=
  let b := leBytes 4 0x46314655 ++ leBytes 2 1 ++ leBytes 2 (flags % 2) ++ bytesAt serial 0 16 ++ leBytes 8 time ++ leBytes 4 3380000 ++
    leBytes 4 6500 ++ leBytes 4 3373499 ++ [4, 92, 64, 0] ++ List.replicate 8 0xFF ++ bytesAt device 0 16 ++ leBytes 436 0
  b ++ leBytes 4 (crc32c b).toNat

/-- Whether a format record is whole (R69): the record that its own serial, flags, time and device make, but for its dark table. -/
def formatOk (b : List Byte) : Bool :=
  natAt b 508 4 == (crc32c (bytesAt b 0 508)).toNat && natAt b 48 1 == 0xFF &&
    patch (bytesAt b 0 508) 48 (List.replicate 8 0xFF) ==
      bytesAt (formatRecord (natAt b 6 2) (bytesAt b 8 16) (natAt b 24 8) (bytesAt b 56 16)) 0 508

/-- The data of a format yealm (R69): the format record, and zero after it. -/
def formatData (r : List Byte) : List Byte := bytesAt (bytesAt r 0 512) 0 3670016

/-- A WRITE joins the yealms to be written, complete in tile memory (R12). The format yealm carries the ridge protection of the
cartridge and its dark table (R47, R48, R60, R69); one whose data is not as R69 has it counts as a mount would take it.
DESIGN CHOICE: log entry 105. -/
def State.queueYealm (s : State) (c : Cmd) (n : Nat) (quad : Bool) (sel : Nat) (table : List Byte) : State :=
  let y := dC c.desc
  let s := s.takeUp
  let format := s.taBytes (dA c.desc) 0 512
  let whole := formatOk format && s.taBytes (dA c.desc) 0 3670016 == formatData format
  let j : YealmJob := { cmd := c, yealm := y, quad := quad, n := n, selector := sel }
  ({ s with
    fmt := { s.fmt with
      jobs := s.fmt.jobs ++ [j]
      darkTable := if y ≠ quadBase then table else if whole then bytesAt format 48 8 else ({} : Fmt).darkTable
      passed := s.fmt.passed.filter fun x => x != y
      ended := s.fmt.ended.filter fun (e : Nat × W16) => e.1 != y
      decoded := s.fmt.decoded.filter fun (d : Decoded) => d.yealm != y
      ridgeProtection := if y = quadBase then whole && (natAt format 6 1).testBit 0 else s.fmt.ridgeProtection } }).writingFlag

/-- A WRITE ends at its checks with nothing written: a group of the program set that its yealm lies in fails (R339). -/
def State.refuseWrite (s : State) (c : Cmd) (st : W16) : State := (s.dataFault (dC c.desc) st).finish c st

/-- WRITE (R51, R319, R320): N and the yealm number first, then the buffer, the conditions of R163 and the dark table.
DEDUCED: log entry 35. -/
def execWrite (i : Nat) (s : State) : Res :=
  runCmd 2 i 2 s fun c s =>
    let quad := (dArg c.desc).testBit 8
    let n := dArg c.desc % 128
    if n ≠ (if quad then 16 else s.activeList.length) ∨ quad ≠ decide (quadBase ≤ dC c.desc) ∨ 2 ^ 28 ≤ dC c.desc then
      s.refuseWrite c St.BAD_PARAM
    else match s.yealmCheck c (dA c.desc) (yealmBytes n) false with
      | some e => s.refuseWrite c e
      | none =>
        if !s.mayWrite then s.refuseWrite c St.NOT_READY
        else match (if quad then some (0, s.fmt.darkTable) else s.selector) with
          | none => s.refuseWrite c St.BAD_PARAM
          | some (sel, table) =>
            let (s, _, m) := s.taRead (dA c.desc) (yealmBytes n)
            if m then s.refuseWrite c St.POISON else s.queueYealm c n quad sel table

/-! ## SEAL (R321) -/

/-- The status with which yealms of a seal's group have ended (R321).
DESIGN CHOICE: log entry 100. -/
def State.groupEnded (s : State) (r : List Byte) : Option W16 :=
  let l := (s.fmt.ended.filter fun (e : Nat × W16) => inGroup r e.1).map fun e => e.2
  if l.contains St.MEDIA_LOST then some St.MEDIA_LOST else if l.contains St.TAPE_FULL then some St.TAPE_FULL else l.head?

/-- A SEAL ends at its checks with nothing written. -/
def State.refuseSeal (s : State) (c : Cmd) (st : W16) : State := (s.sealFail c st).finish c st

/-- A SEAL's checks, and its taking up (R163, R319, R321).
DEDUCED: log entry 35. -/
def State.takeSeal (s : State) (c : Cmd) : State :=
  match s.engCheck c (dA c.desc) 1024 with
  | some e => s.refuseSeal c e
  | none =>
    let (s, r, m) := s.taRead (dA c.desc) 1024
    if m then s.refuseSeal c St.POISON
    else if recSeq r ≠ (s.txr.get (fun _ => 0) 0).toNat then s.refuseSeal c St.BAD_PARAM
    else match s.groupEnded r with
      | some e => s.refuseSeal c e
      | none =>
        if !s.mayWrite then s.refuseSeal c St.NOT_READY
        else
          let s := s.takeUp
          let (l, later) := s.fmt.seals.span fun x => decide (x.cmd.seq < c.seq)
          ({ s with fmt := { s.fmt with seals := l ++ ({ cmd := c, record := r } : SealJob) :: later } }).writingFlag

/-- SEAL (R163, R319, R321): checked and held, among the others in the order of acceptance, until it may begin. -/
def execSeal (i : Nat) (s : State) : Res :=
  match s.ready 2 i 3 with
  | none => .next s
  | some c =>
    let s := s.start c
    .next (if c.badOwner then s.refuseSeal c St.BAD_OWNER else s.takeSeal c)

/-! ## Yealm boundaries (R12, R39, R55, R62, R213) -/

/-- Whether every channel stands at, or within two courses of, a yealm boundary, and none is under a stop.
DEDUCED: log entry 37. -/
def State.atBoundary (s : State) : Bool :=
  s.wrc.placed && !s.mot.stopPending && !s.mot.stopped && s.activeList.all fun c => decide ((s.wchan c).queue.length ≤ 2)

/-- Whether `n` segments of the data zone are left on every active channel (R39). -/
def State.segsLeft (s : State) (n : Nat) : Bool := s.activeList.all fun c => decide (n ≤ (s.wchan c).left)

/-- The rest of the wrap is left unwritten and packing restarts on the next one (R38, R39). -/
def State.nextWrap (s : State) : State :=
  let s := s.each (List.range 64) fun s c => s.setWchan c { s.wchan c with atom := 1, seg := 0, rewind := none }
  { s with wrc := { s.wrc with wrap := s.wrc.wrap + 1 } }

/-- Courses laid out on a channel after those it has. A last segment that was filled is written again with them (R37, R213);
its courses keep the verify they have. -/
def WChan.append (w : WChan) (l : List CourseOut) : WChan :=
  match w.rewind with
  | some (q, a) => { w with queue := (q.map fun x => { x with again := true }) ++ l, atom := a, seg := w.seg - 1, rewind := none }
  | none => { w with queue := w.queue ++ l }

/-- The 248 courses of channel index k of a yealm's instance (R45, R46, R52). -/
def yealmCourses (j : YealmJob) (quarter k : Nat) : List CourseOut :=
  (List.range 248).map fun p =>
    let c : CourseOut :=
      { kind := if p < 240 then .orig else .slot
        job := j.cmd.seq
        yealm := j.yealm
        quarter := quarter
        pos := if p < 240 then p else (p - 240) * j.n + k
        k := k
        n := j.n
        g := (k + 240 * j.n - p) % j.n
        i := p
        rewrite := j.inst
        selector := j.selector
        addr := dA j.cmd.desc }
    c

/-- A stretch of 248 courses that a quad-written yealm leaves out (R68). -/
def unwrittenCourses (j : YealmJob) : List CourseOut :=
  List.replicate 248
    { kind := .unwritten, job := j.cmd.seq, yealm := j.yealm, pos := 0, k := 0, n := 16, g := 0, i := 0, rewrite := j.inst,
      selector := 0 }

/-- An instance of a yealm laid out on the channels of one list. -/
def State.layList (s : State) (j : YealmJob) (quarter : Nat) (l : List Nat) : State :=
  s.each l.zipIdx fun s e => s.setWchan e.1 ((s.wchan e.1).append (yealmCourses j quarter e.2))

/-- One quarter of a quad-written yealm, or the stretch it leaves out (R68). -/
def State.layQuarter (s : State) (j : YealmJob) (q : Nat) : State :=
  let l := s.quarterList q
  if l.isEmpty then
    s.each (s.activeList.filter fun c => c / 16 == q) fun s c => s.setWchan c ((s.wchan c).append (unwrittenCourses j))
  else s.layList j q l

/-- An instance of a yealm begins (R12, R55): the tracking of its courses starts anew, and its courses join the packing. -/
def State.startYealm (s : State) (j : YealmJob) : State :=
  let quarters := (List.range 4).filter fun q => !(s.quarterList q).isEmpty
  let j' : YealmJob :=
    { j with
      inst := if j.scheduled.isSome then j.inst + 1 else j.inst
      started := true
      scheduled := none
      pending := 240 * j.n * (if j.quad then quarters.length else 1)
      passed := []
      tries := []
      slots := []
      gone := [] }
  let lead := if j.quad then 16 * quarters.headD 0 else s.activeList.headD 0
  let starts := if j.quad && !(s.fmt.quadStarts.any fun (e : Nat × Nat × Nat) => e.1 == j.yealm) then
      s.fmt.quadStarts ++ [(j.yealm, s.wrc.wrap, segLpos s.wrc.wrap (s.wchan lead).nextPos.1)]
    else s.fmt.quadStarts
  let s := { s.updJob j.cmd.seq (fun _ => j') with fmt := { (s.updJob j.cmd.seq (fun _ => j')).fmt with quadStarts := starts } }
  (if j.quad then s.each (List.range 4) fun s q => s.layQuarter j' q else s.layList j' 0 s.activeList).writingFlag

/-- The scheduled instance of lowest order. -/
def firstScheduled : List YealmJob → Option YealmJob
  | [] => none
  | j :: js => match j.scheduled, firstScheduled js with
    | none, r => r
    | some _, none => some j
    | some n, some k => if k.scheduled.any fun m => decide (m < n) then some k else some j

/-- The WRITEs whose yealms may start: while packing is to be taken up anew, those accepted before (R67). -/
def State.jobsNow (s : State) : List YealmJob :=
  match s.wrc.resume with
  | [] => s.fmt.jobs
  | (n, _) :: _ => s.fmt.jobs.filter fun j => decide (j.cmd.seq < n)

/-- The yealm that starts next: scheduled instances in the order of scheduling, then yealms not begun (R167). -/
def State.nextYealm (s : State) : Option YealmJob :=
  match firstScheduled s.jobsNow with
  | some j => some j
  | none => s.jobsNow.find? fun j => !j.started

/-- The first held seal, when every yealm of its group has passed verify (R62) and no SEAL accepted before it still waits (R321).
DEDUCED: log entry 37. -/
def State.sealReady (s : State) : Option SealJob :=
  match s.fmt.seals with
  | [] => none
  | j :: _ =>
    if !j.begun && (groupYealms j.record).all (fun y => s.fmt.passed.contains y) &&
        (s.cmds 2).all (fun c => dCode c.desc != 3 || decide (j.cmd.seq < c.seq)) then some j else none

/-- Whether a seal is held whose yealms have all been written, so that pace makes no stop (R213). -/
def State.sealWaits (s : State) : Bool :=
  s.fmt.seals.any fun j => (groupYealms j.record).all fun y =>
    s.fmt.passed.contains y || s.fmt.jobs.any fun x => x.yealm == y && x.started && x.scheduled.isNone

/-- Pace is to stop at this boundary for want of a complete yealm (R12, R213). -/
def State.forcedStop (s : State) : State :=
  if !s.sealWaits && s.activeList.any (fun c => (s.wchan c).rewind.isSome) then
    ({ s with mot := { s.mot with stopPending := true } }).bump F.PACE_CNT.FORCED
  else s

/-- Whether everything laid out is written and judged. -/
def State.judged (s : State) : Bool := s.drained && s.activeList.all fun c => (s.wchan c).awaiting.isEmpty

/-- YEALM_START (R12, R39, R55, R69, R167): the next instance or yealm starts at a boundary; with none, pace stops there. A seal that
is begun or ready goes first (R62). -/
def execYealmStart (s : State) : Res :=
  whileClocked s <|
  let s := s.resumeDue
  if !s.atBoundary || s.sealReady.isSome || s.fmt.seals.any (fun j => j.begun) then .next s
  else match s.nextYealm with
    | none => .next s.forcedStop
    | some j =>
      if j.yealm = quadBase && !j.started then .next (if s.judged then s.atFormat.startYealm j else s)
      else if s.segsLeft 170 then .next (s.startYealm j)
      else if !s.drained then .next s
      else if 367 ≤ s.wrc.wrap then .next (s.loseYealm j St.TAPE_FULL)
      else .next (s.nextWrap.startYealm j)

/-! ## Seals (R62, R63, R168) -/

/-- The record as FMT completes it (R63, R319): offsets 44, 48, 928, and 1,020 last. Offset 50 and the reserved bytes 54 to 63 and
936 to 1,019, which R319 gives to neither side, stay as the program's buffer holds them.
DESIGN CHOICE: log entry 87. -/
def State.fillRecord (s : State) (r : List Byte) (lpos : Nat) : List Byte :=
  let r := patch (patch (patch r 44 (leBytes 4 lpos)) 48 (leBytes 2 s.wrc.wrap)) 928 s.fmt.darkTable
  patch r 1020 (leBytes 4 (crc32c (bytesAt r 0 1020)).toNat)

/-- A seal, or a repeat of it, laid out on every active channel (R62); FMT's part of the record is filled in in its buffer (R319). -/
def State.laySeal (s : State) (j : SealJob) : State :=
  let l := s.activeList
  let r := if j.begun then j.record else s.fillRecord j.record (segLpos s.wrc.wrap (s.wchan (l.headD 0)).nextPos.1)
  let sel := match s.selector with
    | some (k, _) => k
    | none => 0
  let course (k : Nat) : CourseOut :=
    { kind := .sealCourse, job := j.cmd.seq, yealm := recLast r, pos := 248, k := k, n := l.length, g := k, i := 254,
      rewrite := j.rewrite, selector := sel, record := r }
  let at' (s : State) (pos : WChan → Nat × Nat) : List (Nat × Nat) := l.map fun c =>
    (c, tapePlace s.wrc.wrap (pos (s.wchan c)).1 (pos (s.wchan c)).2)
  let begins := if j.begun then j.begins else at' s WChan.nextPos
  let s := s.each l.zipIdx fun s e => s.setWchan e.1 ((s.wchan e.1).append [course e.2])
  let s := if j.begun then s else s.each [(44, 4), (48, 2), (928, 8), (1020, 4)] fun s e =>
    s.taWrite (mkTa (taHandle (dA j.cmd.desc)) (taOff (dA j.cmd.desc) + e.1)) (bytesAt r e.1 e.2) false
  (s.updSeal j.cmd.seq fun j =>
    { j with record := r, begun := true, selector := sel, total := l.length, passes := 0, judged := 0, begins := begins,
             ends := at' s WChan.endPos }).writingFlag

/-- A seal or a repeat placed where the packing stands, or on the next wrap when fewer than 2 segments are left (R39). -/
def State.placeSeal (s : State) (j : SealJob) : State :=
  if s.segsLeft 2 then s.laySeal j
  else if !s.drained then s
  else if 367 ≤ s.wrc.wrap then s.endSeal j St.TAPE_FULL 0
  else s.nextWrap.laySeal j

/-- SEAL_BEGIN (R62): the first held seal begins at a yealm boundary once its whole group has passed verify,
the dark group in force having its entry in the dark table (R48). -/
def execSealBegin (s : State) : Res :=
  whileClocked s <| match s.sealReady with
  | none => .next s
  | some j =>
    if !s.atBoundary then .next s
    else match s.selector with
      | none => .next (s.endSeal j St.BAD_PARAM 0)
      | some (_, table) => .next ({ s with fmt := { s.fmt with darkTable := table } }.placeSeal j)

/-- The program set's groups after a seal has passed: that group is no more held, and the next one's record takes its CRC (R63). -/
def State.sealedGroup (s : State) (seq : Nat) (crc : List Byte) : State :=
  { s with hst := { s.hst with closed := (s.hst.closed.filter fun g => g.seq != seq).map fun (g : ClosedGroup) =>
      if g.seq = seq + 1 then { g with record := patch g.record 32 crc } else g } }

/-- A seal has passed verify (R168, R169): it is the last valid seal, and its group is durable. -/
def State.sealPassed (s : State) (j : SealJob) : State :=
  let r := j.record
  let q : SealRec :=
    { seq := recSeq r, first := recFirst r, last := recLast r, skip := recSkip r, idxFirst := recIdxFirst r,
      idxCount := recIdxCount r, flags := recFlags r, wrap := natAt r 48 2, lpos := natAt r 44 4,
      crc := BitVec.ofNat 32 (natAt r 1020 4), selector := j.selector, record := r, begins := j.begins, ends := j.ends }
  let s := { s with
    fmt := { s.fmt with
      chain := s.fmt.chain ++ [q]
      passed := s.fmt.passed.filter fun y => !(groupYealms r).contains y
      quadStarts := s.fmt.quadStarts.filter fun (e : Nat × Nat × Nat) => !(groupYealms r).contains e.1
      index := if (recFlags r).testBit 3 then
          match s.fmt.quadStarts.find? fun (e : Nat × Nat × Nat) => e.1 == recIdxFirst r with
          | some e => (e.2.1, e.2.2, e.1)
          | none => s.fmt.index
        else s.fmt.index } }
  (s.endSeal j St.OK j.rewrite).sealedGroup (recSeq r) (bytesAt r 1020 4)

/-- SEAL_VERIFY (R168): once its courses are judged a seal passes when at least half of them did, or is repeated with the next
rewrite count; a failure at rewrite count 7 ends it MEDIA_LOST. A repeat that is to begin the next wrap waits until this one has
been written. -/
def execSealVerify (s : State) : Res :=
  whileClocked s <| match s.fmt.seals.find? fun j => j.begun && decide (j.judged = j.total) with
  | none => .next s
  | some j =>
    if j.total ≤ 2 * j.passes then .next (s.sealPassed j)
    else if 7 ≤ j.rewrite then .next ((s.report 0x0B01 (recLast j.record)).endSeal j St.MEDIA_LOST 0)
    else if !s.segsLeft 2 && !s.drained then .next s
    else
      let j := { j with rewrite := j.rewrite + 1 }
      .next ((s.updSeal j.cmd.seq fun _ => j).placeSeal j)

/-! ## Verify of courses (R164, R165) -/

/-- The threshold of R164: floor(96 × MARGIN / 100), MARGIN at most 100. -/
def State.verifyLimit (s : State) : Nat := 96 * min 100 (s.fld F.WRC_VFY_CTL.MARGIN) / 100

/-- Whether a course's read-back copy passes (R164); the bytes of the yealm buffer that it is compared with are verified at use
(R252, R335). -/
def State.copyStands (s : State) (x : CourseOut) (k : Copy) : State × Bool :=
  let s := if x.kind = .orig ∨ x.kind = .letCopy then (s.taRead x.place 1024).1 else s
  (s, k.pass && decide (k.corr ≤ s.verifyLimit) && k.hdr == x.header && k.data == s.courseData x)

/-- COURSE_VERIFY (R164, R165): at its decision moment the oldest course that awaits verify on a channel is judged by the copy
its reader framed, or fails for want of one. What a stop is to rewrite is decided by the rewrite (R214). -/
def execCourseVerify (c : Chan) (framed : Bool) (s : State) : Res :=
  whileClocked s <|
  let w := s.wchan c
  let k := s.fmt.copies.find? fun k => k.chan == c.val
  match w.awaiting with
  | [] => .next s
  | x :: rest =>
    if framed && k.isNone then .next s
    else
      let s := s.setWchan c { w with awaiting := rest }
      let k := if framed then k else none
      let s := match k with
        | some k => { s with fmt := { s.fmt with copies := s.fmt.copies.erase k } }
        | none => s
      .next (if x.gated || (x.tail && s.mot.stopPending) then s
        else match k with
          | some k =>
            let (s, ok) := s.copyStands x k
            if ok then s.passCourse x else s.failCourse x
          | none => s.failCourse x)

/-! ## The UF1 locator (R71) -/

/-- The locator of the last valid seal and the newest index set; with no index set on the cartridge its wrap, LPOS and yealm number
are zero.
DESIGN CHOICE: log entry 88. -/
def State.locator (s : State) (r : SealRec) : List Byte :=
  let (w, l, y) := s.fmt.index
  let b := leBytes 4 0x4C314655 ++ leBytes 8 r.seq ++ leBytes 2 r.wrap ++ leBytes 2 w ++ leBytes 4 r.lpos ++ leBytes 4 l ++
    leBytes 4 y
  b ++ leBytes 4 (crc32c b).toNat

/-- UF1_LOCATOR_WRITE (R71): after the seal that ends a write session. -/
def execUf1LocatorWrite (s : State) : Res :=
  whileClocked s <| match s.fmt.chain.getLast? with
  | some r => .next (if s.flag F.WRC_STAT.WRITING then s else s.emit (.cartridgeMemory (s.locator r)))
  | none => .next s

end Sys2Proof.Machine
end

