-- ==== Sys2Proof/Machine/ReadBack.lean ====
section
/-!
DEFINITION. The ECC formatter on the read side: which copies stand (R56, R66, R67), C2 and C3 (R102 to R108), and READ (R109,
R319).
-/
namespace Sys2Proof.Machine

/-! ## Copies before the end of data (R56, R66, R67) -/

/-- Place on tape of a copy: that of its first bit. -/
def Copy.place (k : Copy) : Nat := tapePlace k.wrap (lposSeg k.wrap k.lpos) k.bit

/-- Whether a resume after one of the seals makes a copy of a channel absent (R67): `done` are the seals up to the one before `l`. -/
def absentAt (y chan place : Nat) : List SealRec → List SealRec → Bool
  | done, a :: b :: l =>
    let gone := b.flags.testBit 4 && decide (place < placeOn a.begins chan) &&
      (if quadBase ≤ y then decide (quadTop (done ++ [a]) < y) else a.last == quadBase || decide (a.last < y))
    gone || absentAt y chan place (done ++ [a]) (b :: l)
  | _, _ => false

/-- Whether a copy stands: before the end of data on its channel and not absent (R56, R66, R67). -/
def State.copyAlive (s : State) (k : Copy) : Bool :=
  match s.fmt.chain.getLast? with
  | none => false
  | some r => decide (k.place < placeOn r.ends k.chan) && !absentAt (hdrYealm k.hdr) k.chan k.place [] s.fmt.chain

/-- The copies of a yealm's courses that stand, by valid headers, whether or not they pass C1; other indexes are no courses of a yealm
(R43). -/
def State.seenOf (s : State) (y : Nat) : List Copy :=
  s.fmt.copies.filter fun k => headerOk k.hdr && hdrYealm k.hdr == y && decide (hdrIndex k.hdr < 240) && s.copyAlive k

/-- The copies of a yealm's courses that pass C1 and stand. -/
def State.copiesOf (s : State) (y : Nat) : List Copy :=
  s.fmt.copies.filter fun k => k.pass && hdrYealm k.hdr == y && decide (hdrIndex k.hdr < 240) && s.copyAlive k

/-- Which of two copies of a course is taken (R56): the higher rewrite count, then the later in the direction of travel. -/
def laterCopy (a b : Copy) : Copy :=
  let r := hdrRewrite a.hdr
  let q := hdrRewrite b.hdr
  if r < q then b else if q < r then a
  else if a.place < b.place ∨ (a.place = b.place ∧ a.order < b.order) then b else a

/-- The copy taken of a course among copies of its yealm (R56, R105). -/
def courseCopy (l : List Copy) (g i : Nat) : Option Copy :=
  match l.filter fun k => hdrGroup k.hdr == g && hdrIndex k.hdr == i with
  | [] => none
  | k :: ks => some (ks.foldl laterCopy k)

/-! ## C2 (R102, R105, R106, R108) -/

/-- What C2 makes of a yealm, with the counts of R105 and R102. -/
structure C2Out where
  dec : Decoded
  erased : Nat
  corrected : Nat
  deriving DecidableEq, Repr

/-- A course with no copy: its bytes enter C2 as zero, erased. -/
def noCourse : List Byte := List.replicate 1024 0

/-- One C2 group from its 240 courses: the 240 corrected rows, the byte indexes that failed and how many passed with an error
or erasure. -/
def c2Group (rows : List (Option (List Byte))) : List (List Byte) × List Nat × Nat :=
  let er := (List.range 240).filter fun i => (rows.getD i none).isNone
  let cols := (List.range 1024).map fun b =>
    let w := rows.map fun r => (r.getD noCourse).getD b 0
    match rsDecode 16 w er with
    | some (v, k) => (v, false, decide (k ≠ 0) || !er.isEmpty)
    | none => (w, true, false)
  let out := (List.range 240).map fun i => cols.map fun c => c.1.getD i 0
  (out, (List.range 1024).filter (fun b => (cols.getD b ([], false, false)).2.1), (cols.filter fun c => c.2.2).length)

/-- C2 over the groups of a yealm of N channels, from a choice of copy for each course. -/
def c2Yealm (y n sel : Nat) (mixed : Bool) (pick : Nat → Nat → Option Copy) : C2Out :=
  let one (acc : C2Out) (g : Nat) : C2Out :=
    let rows := (List.range 240).map fun i => (pick g i).map fun k => k.data
    let (out, bad, corr) := c2Group rows
    let data := out.zipIdx.foldl (fun (m : SMap (List Byte)) e => m.set (fun _ => noCourse) (n * e.2 + g) e.1) acc.dec.data
    { dec := { acc.dec with data := data, failed := acc.dec.failed ++ bad.map fun b => 1024 * g + b }
      erased := acc.erased + (rows.filter fun r => r.isNone).length
      corrected := acc.corrected + corr }
  (List.range n).foldl one { dec := ⟨y, n, sel, [], [], mixed⟩, erased := 0, corrected := 0 }

/-- N of a dark selector (R41). -/
def selectorN (sel : Nat) : Nat := if sel = 0 then 64 else 60

/-- The quarter that a copy of a quad-written yealm was read on (R68). -/
def Copy.quarter (k : Copy) : Nat := k.chan / 16

/-- The quarters in the order in which courses are taken from them: most courses first, then lowest number.
DEDUCED: log entry 41. -/
def quarterOrder (l : List Copy) : List Nat :=
  let courses (q : Nat) : Nat := ((((l.filter fun k => k.quarter == q).map fun k => 256 * hdrGroup k.hdr + hdrIndex k.hdr).eraseDups)).length
  let ins (q : Nat) (acc : List Nat) : List Nat := (acc.filter fun p => decide (courses q ≤ courses p)) ++ q ::
    (acc.filter fun p => decide (courses p < courses q))
  [0, 1, 2, 3].foldl (fun acc q => ins q acc) []

/-- A course from the first quarter of a list that has a copy of it (R108). -/
def mixCopy (l : List Copy) (g i : Nat) : List Nat → Option Copy
  | [] => none
  | q :: qs => match courseCopy (l.filter fun k => k.quarter == q) g i with
    | some k => some k
    | none => mixCopy l g i qs

/-- C2 over a quad-written yealm (R108): with QUAD_MIX courses substituted between quarters, else the quarter with the fewest
failed codewords, whose counts alone are those of the yealm.
DESIGN CHOICE: log entry 102. -/
def State.c2Quad (s : State) (y : Nat) (l : List Copy) : C2Out :=
  let o := quarterOrder l
  if s.flag F.FMT_CODE_CTL.QUAD_MIX then
    let picks := (List.range 16).flatMap fun g => (List.range 240).filterMap fun i => (mixCopy l g i o).map Copy.quarter
    c2Yealm y 16 0 (decide (1 < picks.eraseDups.length)) fun g i => mixCopy l g i o
  else
    let read := [0, 1, 2, 3].filter fun q => l.any fun k => k.quarter == q
    let outs := read.map fun q => c2Yealm y 16 0 false fun g i => courseCopy (l.filter fun k => k.quarter == q) g i
    match outs with
    | [] => c2Yealm y 16 0 false fun _ _ => none
    | a :: r => r.foldl (fun b x => if x.dec.failed.length < b.dec.failed.length then x else b) a

/-- The dark selector of a yealm's courses: that of the newest instance found. -/
def selectorOf (l : List Copy) : Nat :=
  match l with
  | [] => 0
  | k :: ks => hdrSelector (ks.foldl laterCopy k).hdr

/-- What C2 makes of what has been read of a yealm (R102, R105). -/
def State.c2Of (s : State) (y : Nat) : C2Out :=
  let l := s.copiesOf y
  let sel := selectorOf (if l.isEmpty then s.seenOf y else l)
  if quadBase ≤ y then s.c2Quad y l else c2Yealm y (selectorN sel) sel false (courseCopy l)

/-- C2 over what has been read of a yealm, counted (R102, R105). -/
def State.runC2 (s : State) (y : Nat) : State × Decoded :=
  let r := s.c2Of y
  let s := (s.bump F.FMT_CODE_CNT0.POS_ERASED r.erased).bump F.FMT_CODE_CNT1.C2_FAIL r.dec.failed.length
  (s.bump F.FMT_CODE_CNT1.C2_CORR r.corrected, r.dec)

/-- A yealm's result is put with FMT's others, in place of an earlier one, and the yealm is held no more.
DEDUCED: log entry 41. -/
def State.putDecoded (s : State) (d : Decoded) : State :=
  { s with
    fmt := { s.fmt with
      decoded := (s.fmt.decoded.filter fun (x : Decoded) => x.yealm != d.yealm) ++ [d]
      waiting := s.fmt.waiting.filter fun y => y != d.yealm } }

/-- The result FMT holds for a yealm. -/
def State.decodedOf (s : State) (y : Nat) : Option Decoded := s.fmt.decoded.find? fun d => d.yealm == y

/-- Whether every C2 codeword of a yealm has passed: a later instance of it is skipped (R106). -/
def State.yealmDelivered (s : State) (y : Nat) : Bool := (s.decodedOf y).any fun d => d.failed.isEmpty

/-- YEALM_DECODE (R105, R106): once the let area of a yealm's newest instance is read; a yealm with a failed codeword is held for
a later instance, and a later instance of one whose codewords all passed is skipped. A yealm of which every copy seen fails C1 has
all its courses erased. -/
def execYealmDecode (y : Nat) (s : State) : Res :=
  whileClocked s <|
  if ((s.seenOf y).isEmpty && (s.copiesOf y).isEmpty) || s.yealmDelivered y then .next s
  else
    let (s, d) := s.runC2 y
    .next (if d.failed.isEmpty then s.putDecoded d
      else { s with
        fmt := { s.fmt with
          waiting := (s.fmt.waiting.filter fun x => x != y) ++ [y]
          c2At := s.fmt.c2At.set (fun _ => 0) y s.fmt.nextOrder } })

/-- Whether a copy of a yealm has been read since C2 ran over it. -/
def State.laterSeen (s : State) (y : Nat) : Bool := (s.copiesOf y).any fun k => decide (s.fmt.c2At.get (fun _ => 0) y ≤ k.order)

/-- C2_RETRY (R106): the tape has passed two yealm numbers beyond a held yealm; where a later instance was found, C2 is tried again over
every instance, and what still fails is left to C3 and R109. -/
def execC2Retry (y : Nat) (s : State) : Res :=
  whileClocked s <|
  if !s.fmt.waiting.contains y then .next s
  else if !s.laterSeen y then .next (s.putDecoded (s.c2Of y).dec)
  else
    let (s, d) := s.runC2 y
    .next (s.putDecoded d)

/-! ## C3 (R57 to R60, R104, R107) -/

/-- Whether a yealm number lies in a seal's group (R61). -/
def SealRec.holds (r : SealRec) (y : Nat) : Bool :=
  if quadBase ≤ y then
    (r.seq == 0 && y == quadBase) || (r.idxCount != 0 && decide (r.idxFirst ≤ y) && decide (y < r.idxFirst + r.idxCount))
  else r.last != quadBase && decide (r.first ≤ y) && decide (y ≤ r.last)

/-- The seal of the group that a yealm number lies in (R61, R66). On a chain taken up at a confirmed locator (R71) the yealms before its
first seal count as that seal's.
DEDUCED: log entry 53. -/
def State.sealOf (s : State) (y : Nat) : Option SealRec :=
  match s.fmt.chain.find? fun r => r.holds y with
  | some r => some r
  | none => s.fmt.chain.head?.filter fun r => r.seq != 0 && (if quadBase ≤ y then decide (y < r.idxFirst) else decide (y < r.first))

/-- Whether a number is named skipped by the seal that closes its group (R58, R107). -/
def State.isSkipped (s : State) (y : Nat) : Bool :=
  match s.sealOf y with
  | some r => skipped r.skip y
  | none => false

/-- What each yealm of a ridge gives C3 (R107). -/
inductive RidgeRow where
  | zero
  | erased
  | row (d : Decoded)
  deriving DecidableEq, Repr

/-- What a yealm number gives C3 (R107): the result that FMT holds for it, or what C2 makes of the copies read so far where it is
held or not yet decoded; with no copy a skipped number is zero and any other erased. C3 does not wait for what lies ahead on tape: a
number none of whose copies has been read when READ runs counts as erased, which the spec leaves open.
DESIGN CHOICE: log entry 108. -/
def State.ridgeRow (s : State) (y : Nat) : RidgeRow :=
  match s.decodedOf y with
  | some d => .row d
  | none =>
    if !(s.copiesOf y).isEmpty then .row (s.c2Of y).dec
    else if s.isSkipped y && (s.seenOf y).isEmpty then .zero else .erased

/-- The rows of a ridge. -/
def State.ridgeRows (s : State) (r : Nat) : List RidgeRow := (List.range 16).map fun m => s.ridgeRow (16 * r + m)

/-- Whether C3 applies to a yealm (R104): ridge protection, C3_EN, a data or parity yealm of a ridge whose parity yealms are
sealed, and one dark selector among its yealms as found on tape, in copies that pass C1 or not. -/
def State.c3Applies (s : State) (y : Nat) : Bool :=
  let r := y / 16
  let sels := ((s.ridgeRows r).filterMap fun x => match x with
    | .row d => some d.selector
    | _ => none) ++ (List.range 16).flatMap fun m => (s.seenOf (16 * r + m)).map fun k => hdrSelector k.hdr
  s.fmt.ridgeProtection && s.flag F.FMT_CODE_CTL.C3_EN && decide (y < quadBase) && (s.sealOf (16 * r + 14)).isSome &&
    (s.sealOf (16 * r + 15)).isSome && sels.all fun x => x == sels.headD 0

/-- One symbol of a yealm for a C3 codeword, and whether it is erased. -/
def RidgeRow.symbol (x : RidgeRow) (g i b : Nat) : Byte × Bool :=
  match x with
  | .zero => (0, false)
  | .erased => (0, true)
  | .row d =>
    if d.failed.contains (1024 * g + b) then (0, true)
    else ((d.data.get (fun _ => noCourse) (d.n * i + g)).getD b 0, false)

/-- C3 for symbol i of a failed codeword (g, b) of yealm number m of a ridge: the symbol when its codeword decodes, and whether
it had an error or erasure. -/
def c3Symbol (rows : List RidgeRow) (m g i b : Nat) : Option (Byte × Bool) :=
  let sy := rows.map fun x => x.symbol g i b
  let er := (List.range 16).filter fun k => (sy.getD k (0, false)).2
  match rsDecode 2 (sy.map fun e => e.1) er with
  | some (w, k) => some (w.getD m 0, decide (k ≠ 0) || !er.isEmpty)
  | none => none

/-- A yealm as READ delivers it: its courses, those with unrecovered bytes, its lost codewords and what C3 did. -/
structure Delivered where
  data : SMap (List Byte)
  bad : List Nat
  lost : List Nat
  corrected : Nat
  failed : Nat
  deriving DecidableEq, Repr

/-- One failed codeword taken through C3, or lost (R104, R107, R109); `draw` numbers the free bytes.
DESIGN CHOICE: log entry 42. -/
def recoverWord (rows : Option (List RidgeRow)) (draw m n : Nat) (acc : Delivered) (cw : Nat) : Delivered :=
  let g := cw / 1024
  let b := cw % 1024
  let one (a : Delivered × Bool) (i : Nat) : Delivered × Bool :=
    let (d, lost) := a
    let k := n * i + g
    let put (v : Byte) : SMap (List Byte) :=
      d.data.set (fun _ => noCourse) k ((d.data.get (fun _ => noCourse) k).set b v)
    match rows.bind fun r => c3Symbol r m g i b with
    | some (v, c) => ({ d with data := put v, corrected := d.corrected + c.toNat }, lost)
    | none =>
      ({ d with
          data := put (Config.freeSymbol draw (1024 * k + b))
          bad := if d.bad.contains k then d.bad else d.bad ++ [k]
          failed := d.failed + (if rows.isSome then 1 else 0) }, true)
  let (d, lost) := (List.range 240).foldl one (acc, false)
  if lost then { d with lost := d.lost ++ [cw] } else d

/-- A yealm's result with its failed codewords taken through C3 where that applies. C3 runs, and is counted, anew at every READ.
DESIGN CHOICE: log entry 102. -/
def State.deliver (s : State) (d : Decoded) : State × Delivered × Bool :=
  let rows := if s.c3Applies d.yealm then some (s.ridgeRows (d.yealm / 16)) else none
  let out := d.failed.foldl (recoverWord rows s.freeCtr (d.yealm % 16) d.n) ⟨d.data, [], [], 0, 0⟩
  let s := (s.bump F.FMT_CODE_CNT2.C3_CORR out.corrected).bump F.FMT_CODE_CNT2.C3_FAIL out.failed
  (if out.lost.isEmpty then s else s.nextFree, out, rows.isSome && !d.failed.isEmpty)

/-! ## READ (R109, R319) -/

/-- N of a yealm of which no copy is found (R319): from the other yealms of its ridge, or from the seal that closes its group. -/
def State.unseenN (s : State) (y : Nat) : Nat :=
  if quadBase ≤ y then 16
  else match (s.ridgeRows (y / 16)).findSome? fun x => match x with
      | .row d => some d.n
      | _ => none with
    | some n => n
    | none => match s.sealOf y with
      | some r => selectorN r.selector
      | none => 64

/-- The result of a yealm of which no copy is found: every codeword failed. -/
def State.unseen (s : State) (y : Nat) : Decoded :=
  let n := s.unseenN y
  ⟨y, n, 0, [], List.range (1024 * n), false⟩

/-- One entry of the lost-codeword report (R319). -/
def lostEntry (y cw : Nat) : List Byte := leBytes 4 y ++ leBytes 1 (cw / 1024) ++ [0] ++ leBytes 2 (cw % 1024)

/-- READ over a yealm's result: the output buffer, the report, and the completion. -/
def State.readOut (s : State) (c : Cmd) (d : Decoded) : State :=
  let room := if dB c.desc = noAddress then 0 else dD c.desc
  match firstBad [s.yealmCheck c (dA c.desc) (245760 * d.n) true, if room = 0 then none else s.engCheckW c (dB c.desc) (8 * room)] with
  | some e => s.finish c e
  | none =>
    let (s, out, c3) := s.deliver d
    let pieces := (List.range (240 * d.n)).map fun k => (out.data.get (fun _ => noCourse) k, out.bad.contains k)
    let s := s.taWritePieces (dA c.desc) pieces
    let h := (taHandle (dA c.desc)).toNat
    let s := { s with mot := { s.mot with ylmBufs := h :: s.mot.ylmBufs.filter (· != h) } }
    let rep := (out.lost.take room).flatMap (lostEntry d.yealm)
    let s := if rep.isEmpty then s else s.taWrite (dB c.desc) rep false
    let lost := !out.lost.isEmpty
    s.finish c (if lost then St.POISON else St.OK) (c3.toNat + 2 * d.mixed.toNat) out.lost.length lost

/-- READ (R319): carried out once FMT has the yealm's result, or has found no copy of it; a yealm held for a later instance waits
(R106). -/
def execRead (i : Nat) (s : State) : Res :=
  match s.ready 2 i 4 with
  | none => .next s
  | some c =>
    let y := dC c.desc
    if c.badOwner then .next ((s.start c).finish c St.BAD_OWNER)
    else if (dArg c.desc).testBit 8 ≠ decide (quadBase ≤ y) ∨ (s.sealOf y).isNone then .next ((s.start c).finish c St.BAD_PARAM)
    else match s.decodedOf y with
      | some d => .next ((s.start c).readOut c d)
      | none =>
        if s.fmt.waiting.contains y || !(s.seenOf y).isEmpty || !(s.copiesOf y).isEmpty then .next s
        else .next ((s.start c).readOut c (s.unseen y))

end Sys2Proof.Machine
end

