-- ==== Sys2Proof/Machine/Thatch.lean ====
section
/-!
DEFINITION. The Thatch decoder (R216 to R230): code tables, tokens, history and the reasons for rejecting a bundle.
-/
namespace Sys2Proof.Machine

/-- Why a bundle is rejected: a reason of R230. -/
abbrev Reason := Nat

/-- Fields of `n` bits, most significant bit first (R219); a body that ends inside one is rejected for reason 6. -/
def Thatch.bits : Nat → List Bool → Except Reason (Nat × List Bool)
  | 0, l => .ok (0, l)
  | _ + 1, [] => .error 6
  | n + 1, b :: l => match bits n l with
    | .ok (v, r) => .ok (b.toNat * 2 ^ n + v, r)
    | .error e => .error e

/-- The lengths of a dense table (R221, mode 1). -/
def Thatch.dense : Nat → List Bool → Except Reason (List Nat × List Bool)
  | 0, l => .ok ([], l)
  | n + 1, l => match bits 4 l with
    | .error e => .error e
    | .ok (v, r) => match dense n r with
      | .error e => .error e
      | .ok (vs, r) => .ok (v :: vs, r)

/-- The entries of a list table (R221, mode 0): symbols strictly rising from `lo` and below `syms`, lengths 1 to 15. -/
def Thatch.entries (syms width : Nat) : Nat → Nat → List Bool → Except Reason (List (Nat × Nat) × List Bool)
  | 0, _, l => .ok ([], l)
  | n + 1, lo, l => match bits width l with
    | .error e => .error e
    | .ok (x, r) => match bits 4 r with
      | .error e => .error e
      | .ok (len, r) =>
        if x < lo ∨ syms ≤ x ∨ len = 0 then .error 2
        else match entries syms width n (x + 1) r with
          | .error e => .error e
          | .ok (es, r) => .ok ((x, len) :: es, r)

/-- Whether code lengths are valid (R222). -/
def Thatch.validLens (must0 mayEmpty : Bool) (lens : List Nat) : Bool :=
  let used := lens.filter (· ≠ 0)
  let sum := used.foldl (fun a n => a + 2 ^ (15 - n)) 0
  (sum == 2 ^ 15 || used == [1] || (mayEmpty && used.isEmpty)) && (!must0 || lens.headD 0 != 0)

/-- A code table (R221, R222): the length of every symbol. -/
def Thatch.table (syms countW symW : Nat) (must0 mayEmpty : Bool) (l : List Bool) : Except Reason (List Nat × List Bool) :=
  let r : Except Reason (List Nat × List Bool) := match bits 1 l with
    | .error e => .error e
    | .ok (1, r) => dense syms r
    | .ok (_, r) => match bits countW r with
      | .error e => .error e
      | .ok (n, r) =>
        if syms < n then .error 2
        else match entries syms symW n 0 r with
          | .error e => .error e
          | .ok (es, r) =>
            .ok ((List.range syms).map fun x => match es.find? fun e => e.1 == x with
              | some e => e.2
              | none => 0, r)
  match r with
  | .error e => .error e
  | .ok (lens, r) => if validLens must0 mayEmpty lens then .ok (lens, r) else .error 2

/-- The codewords of one length `n`, whose first is `code`: (length, codeword, symbol). -/
def Thatch.codesOf (lens : List Nat) (n code : Nat) : List (Nat × Nat × Nat) :=
  let syms := (List.range lens.length).filter fun x => lens.getD x 0 == n
  (List.range syms.length).map fun k => (n, code + k, syms.getD k 0)

/-- Canonical codewords (R223) of lengths `n` to 15. -/
def Thatch.canonAux (lens : List Nat) : Nat → Nat → Nat → List (Nat × Nat × Nat)
  | 0, _, _ => []
  | k + 1, n, code => codesOf lens n code ++ canonAux lens k (n + 1) ((code + (codesOf lens n code).length) * 2)

/-- Canonical codewords (R223): (length, codeword, symbol). -/
def Thatch.canon (lens : List Nat) : List (Nat × Nat × Nat) := canonAux lens 15 1 0

/-- One codeword read from the bits, `n` bits long so far and of value `v`. -/
def Thatch.symAux (codes : List (Nat × Nat × Nat)) : Nat → Nat → Nat → List Bool → Except Reason (Nat × List Bool)
  | 0, _, _, _ => .error 3
  | k + 1, n, v, l =>
    match codes.find? fun c => c.1 == n && c.2.1 == v with
    | some c => .ok (c.2.2, l)
    | none =>
      if codes.all fun c => decide (c.1 ≤ n) then .error 3
      else match l with
        | [] => .error 6
        | b :: r => symAux codes k (n + 1) (2 * v + b.toNat) r

/-- One codeword (R223, R230 reason 3). -/
def Thatch.sym (codes : List (Nat × Nat × Nat)) (l : List Bool) : Except Reason (Nat × List Bool) := symAux codes 16 0 0 l

/-- The history a decoder copies from: its length, its newest byte's successor position, and the window (R227, R236). -/
structure Thatch.Hist where
  len : Nat
  pos : Nat
  win : SMap Byte

/-- What the decoder of one bundle holds: bytes produced, newest first, their number, and the repeat offset. -/
structure Thatch.Out where
  rev : List Byte
  n : Nat
  rep : Nat

/-- The byte `d` before the output end. -/
def Thatch.back (h : Hist) (o : Out) (d : Nat) : Byte :=
  if d ≤ o.n then o.rev.getD (d - 1) 0
  else h.win.get (fun _ => 0) ((h.pos + 262144 - (d - o.n) % 262144) % 262144)

/-- A copy of `m` bytes from `d` before the output end, byte by byte (R226). -/
def Thatch.copy (orig : Nat) (h : Hist) (d : Nat) : Nat → Out → Except Reason Out
  | 0, o => .ok o
  | m + 1, o =>
    if orig ≤ o.n then .error 5 else copy orig h d m { o with rev := back h o d :: o.rev, n := o.n + 1 }

/-- Literals of a run (R225). -/
def Thatch.literals (orig : Nat) (codes : List (Nat × Nat × Nat)) : Nat → Out → List Bool → Except Reason (Out × List Bool)
  | 0, o, l => .ok (o, l)
  | m + 1, o, l => match sym codes l with
    | .error e => .error e
    | .ok (b, r) =>
      if orig ≤ o.n then .error 5
      else literals orig codes m { o with rev := BitVec.ofNat 8 b :: o.rev, n := o.n + 1 } r

/-- Whether an offset is valid (R227). -/
def Thatch.offsetOk (h : Hist) (o : Out) (d : Nat) : Bool := decide (d ≤ h.len + o.n) && decide (d ≤ 262144) && decide (0 < d)

/-- The length of a match or repeat of bucket `k` of R224, from its extra bits. -/
def Thatch.bucket (k : Nat) (l : List Bool) : Except Reason (Nat × List Bool) :=
  match bits (k + 4) l with
  | .error e => .error e
  | .ok (x, r) => .ok ([20, 36, 68, 132, 260, 516].getD k 0 + x, r)

/-- The offset of a match (R225). -/
def Thatch.offset (codes : List (Nat × Nat × Nat)) (l : List Bool) : Except Reason (Nat × List Bool) :=
  match sym codes l with
  | .error e => .error e
  | .ok (x, r) =>
    if x < 4 then .ok (x + 1, r)
    else match bits (x / 2 - 1) r with
      | .error e => .error e
      | .ok (y, r) => .ok ((2 + x % 2) * 2 ^ (x / 2 - 1) + 1 + y, r)

/-- What follows the length of a match: its offset and its copy (R225, R226). -/
def Thatch.doMatch (orig : Nat) (h : Hist) (co : List (Nat × Nat × Nat)) (m : Nat) (o : Out) (l : List Bool) :
    Except Reason (Out × List Bool) :=
  match offset co l with
  | .error e => .error e
  | .ok (d, r) =>
    if !offsetOk h o d then .error 4
    else match copy orig h d m { o with rep := d } with
      | .error e => .error e
      | .ok o => .ok (o, r)

/-- What follows the length of a repeat (R226). -/
def Thatch.doRepeat (orig : Nat) (h : Hist) (m : Nat) (o : Out) (l : List Bool) : Except Reason (Out × List Bool) :=
  if !offsetOk h o o.rep then .error 4
  else match copy orig h o.rep m o with
    | .error e => .error e
    | .ok o => .ok (o, l)

/-- One token after its command symbol (R224), END apart. -/
def Thatch.token (orig : Nat) (h : Hist) (cl co : List (Nat × Nat × Nat)) (c : Nat) (o : Out) (l : List Bool) :
    Except Reason (Out × List Bool) :=
  if c ≤ 15 then literals orig cl c o l
  else if c ≤ 18 then
    match bits ([4, 8, 16].getD (c - 16) 0) l with
    | .error e => .error e
    | .ok (x, r) => literals orig cl ([16, 32, 288].getD (c - 16) 0 + x) o r
  else if c ≤ 34 then doMatch orig h co (c - 15) o l
  else if c ≤ 40 then
    match bucket (c - 35) l with
    | .error e => .error e
    | .ok (m, r) => doMatch orig h co m o r
  else if c ≤ 56 then doRepeat orig h (c - 37) o l
  else match bucket (c - 57) l with
    | .error e => .error e
    | .ok (m, r) => doRepeat orig h m o r

/-- Tokens to END (R220), then the zero pad to the end of the body (R230 reasons 5 and 6). -/
def Thatch.tokens (orig : Nat) (h : Hist) (cc cl co : List (Nat × Nat × Nat)) : Nat → Out → List Bool → Except Reason Out
  | 0, _, _ => .error 6
  | k + 1, o, l => match sym cc l with
    | .error e => .error e
    | .ok (0, r) =>
      if o.n ≠ orig then .error 5
      else if 7 < r.length ∨ r.any (fun b => b) then .error 6
      else .ok o
    | .ok (c, r) => match token orig h cl co c o r with
      | .error e => .error e
      | .ok (o, r) => tokens orig h cc cl co k o r

/-- A decoded bundle: its bytes, the repeat offset after it, and the code lengths of its tables, C then L then O. -/
structure Thatch.Result where
  out : List Byte
  rep : Nat
  lens : List Nat

/-- A coded body decoded (R220) to `orig` bytes over a history and a repeat offset. -/
def Thatch.body (orig : Nat) (h : Hist) (rep : Nat) (b : List Byte) : Except Reason Result :=
  match table 63 6 6 true false (msbBits b) with
  | .error e => .error e
  | .ok (lc, r) => match table 256 9 8 false true r with
    | .error e => .error e
    | .ok (ll, r) => match table 36 6 6 false true r with
      | .error e => .error e
      | .ok (lo, r) => match tokens orig h (canon lc) (canon ll) (canon lo) (8 * b.length + 1) { rev := [], n := 0, rep := rep } r with
        | .error e => .error e
        | .ok o => .ok { out := o.rev.reverse, rep := o.rep, lens := lc ++ ll ++ lo }

/-- Original length of a bundle header (R217). -/
def Thatch.origLen (b : List Byte) : Nat := natAt b 2 2 + 1
/-- Coded body length of a bundle header (R217). -/
def Thatch.bodyLen (b : List Byte) : Nat := natAt b 4 2
/-- Whether a bundle is stored raw. -/
def Thatch.isRaw (b : List Byte) : Bool := natAt b 0 1 == 0xB0

/-- A bundle decoded (R217, R218, R230). -/
def Thatch.bundle (h : Hist) (rep : Nat) (lens : List Nat) (b : List Byte) : Except Reason Result :=
  let kind := natAt b 0 1
  if kind ≠ 0xB0 ∧ kind ≠ 0xB1 ∨ natAt b 1 1 ≠ 0 then .error 1
  else if kind = 0xB0 then
    if bodyLen b ≠ 0 then .error 1
    else if b.length ≠ 6 + origLen b then .error 6
    else .ok { out := b.drop 6, rep := rep, lens := lens }
  else if origLen b ≤ bodyLen b then .error 1
  else if b.length ≠ 6 + bodyLen b then .error 6
  else body (origLen b) h rep (b.drop 6)

/-- The header of a coded bundle (R217). -/
def Thatch.header (orig coded : Nat) : List Byte := [0xB1, 0] ++ leBytes 2 (orig - 1) ++ leBytes 2 coded

end Sys2Proof.Machine
end

