-- ==== Sys2Proof/Machine/Compression.lean ====
section
/-!
DEFINITION. The compression engine (R231 to R245): contexts and their records, COMPRESS with its self-verify, DECOMPRESS,
CTX_INIT and CTX_SAVE.
-/
namespace Sys2Proof.Machine

/-! ## Contexts (R236 to R238) -/

/-- A lane: the slot loaded and its context. -/
def State.lane (s : State) (l : Nat) : Lane := s.lanes.get (fun _ => {}) l
/-- The state with a lane replaced. -/
def State.setLane (s : State) (l : Nat) (x : Lane) : State := { s with lanes := s.lanes.set (fun _ => {}) l x }
/-- The state with a lane's context replaced. -/
def State.setCtx (s : State) (l : Nat) (c : Ctx) : State := s.setLane l { s.lane l with ctx := c }

/-- The context area (R236). -/
def State.ctxBase (s : State) : W32 := BitVec.ofNat 32 (s.fld F.CMP_CTX_BASE.HANDLE)

/-- The 355 four-bit code lengths of a record, two to a byte (R237). -/
def packNibbles : List Nat → List Byte
  | a :: b :: l => BitVec.ofNat 8 (a % 16 + 16 * (b % 16)) :: packNibbles l
  | [a] => [BitVec.ofNat 8 (a % 16)]
  | [] => []

/-- A context record (R237). -/
def Ctx.record (c : Ctx) : List Byte :=
  let head := leBytes 4 0x43524854 ++ leBytes 2 1 ++ leBytes 2 (c.init.toNat + 2 * c.decomp.toNat + 4 * c.poisoned.toNat) ++
    leBytes 4 c.window.toNat ++ leBytes 4 c.histLen ++ leBytes 4 c.wpos ++ leBytes 4 c.rep ++ leBytes 8 c.total ++
    leBytes 4 c.bundles ++ leBytes 24 0
  let lens := if c.decomp then List.replicate 178 0
    else (packNibbles ((List.range 355).map fun i => c.codeLens.getD i 0))
  let heads := (List.range 1024).flatMap fun e =>
    if c.decomp then leBytes 3 0 else leBytes 3 (c.heads.get (fun _ => 0) e)
  head ++ leBytes 4 (crc32c head).toNat ++ lens ++ List.replicate 782 0 ++ heads

/-- A context from its record and the bytes of its window; none when the record fails its magic, version or CRC-32C (R238). -/
def Ctx.ofRecord (b : List Byte) (win : List Byte) (marked : Bool) : Option Ctx :=
  if natAt b 0 4 ≠ 0x43524854 ∨ natAt b 4 2 ≠ 1 ∨ natAt b 60 4 ≠ (crc32c (bytesAt b 0 60)).toNat then none
  else
    let f := natAt b 6 2
    some {
      init := f.testBit 0, decomp := f.testBit 1, poisoned := f.testBit 2 || marked
      window := BitVec.ofNat 32 (natAt b 8 4), histLen := natAt b 12 4, wpos := natAt b 16 4, rep := natAt b 20 4
      total := natAt b 24 8, bundles := natAt b 32 4
      codeLens := (List.range 355).map fun j => natAt b (64 + j / 2) 1 / (if j % 2 = 0 then 1 else 16) % 16
      heads := (List.range 1024).foldl (fun m e => m.set (fun _ => 0) e (natAt b (1024 + 3 * e) 3)) []
      hist := SMap.store (fun _ => (0 : Byte)) [] 0 (win.take (min (natAt b 12 4) 262144)) }

/-- The checks of R264 on a range that CMP writes of the context area or a window; the transactional image takes no store (R265,
R329). -/
def State.ctxCheckW (s : State) (h : W32) (off len : Nat) : Option W16 :=
  match s.checkUse h off len 1 none with
  | some e => some e
  | none => if s.isImage h then some St.BAD_OWNER else none

/-- What forbids saving a lane's context: a record or window whose handle fails its checks (R244, R265). -/
def State.saveBad (s : State) (l : Nat) : Option W16 :=
  match (s.lane l).loaded with
  | none => none
  | some slot => firstBad [s.ctxCheckW s.ctxBase (4096 * slot) 4096, s.ctxCheckW (s.lane l).ctx.window 0 262144]

/-- A lane gives up its context: the slot is unbound (R234) and the lane empty. -/
def State.emptyLane (s : State) (l : Nat) : State :=
  match (s.lane l).loaded with
  | none => s
  | some slot =>
    let s := s.setLane l {}
    if boundLane s.slotLane slot = some l then { s with slotLane := s.slotLane.set (fun _ => none) slot none } else s

/-- A lane saves its context (R238): the record to the context area, the history to the slot's window; then it gives it up. A save
that a check forbids writes nothing and leaves the lane as it is, and its status is answered.
DEDUCED: log entry 34. -/
def State.saveLane (s : State) (l : Nat) : State × Option W16 :=
  let x := s.lane l
  match x.loaded, s.saveBad l with
  | none, _ => (s, none)
  | some _, some e => (s, some e)
  | some slot, none =>
    let c := x.ctx
    let s := s.bufWrite s.ctxBase (4096 * slot) c.record false
    let s := s.bufWrite c.window 0 (c.hist.slice (fun _ => 0) 0 (min c.histLen 262144)) c.poisoned
    (s.emptyLane l, none)

/-- The lanes of a list save their contexts in turn, up to one whose save is forbidden. -/
def State.saveLanes (s : State) : List Nat → State × Option W16
  | [] => (s, none)
  | l :: ls => match s.saveLane l with
    | (s, none) => State.saveLanes s ls
    | (s, some e) => (s, some e)

/-- The lanes that hold a slot's context. -/
def State.lanesHolding (s : State) (slot : Nat) : List Nat := (List.range 8).filter fun k => (s.lane k).loaded == some slot

/-- A lane makes room for a slot (R235): every other lane that holds it saves it, and another slot's context on this lane is
saved, which is a context switch. -/
def State.vacate (s : State) (slot l : Nat) : State × Option W16 :=
  match s.saveLanes ((s.lanesHolding slot).filter fun k => k != l) with
  | (s, some e) => (s, some e)
  | (s, none) =>
    match (s.lane l).loaded with
    | none => (s, none)
    | some k =>
      if k = slot then (s, none)
      else match s.saveLane l with
        | (s, some e) => (s, some e)
        | (s, none) => (s.bump F.CMP_CNT1.SWITCHES, none)

/-- The empty context of R227 in a role, with its window. -/
def Ctx.fresh (decomp : Bool) (window : W32) : Ctx := { init := true, decomp := decomp, window := window }

/-- A slot's context loaded on a lane for a command (R238), with the status and flag of a refusal: a record that fails, one
not initialised without a reset, a window of another class (R244), or a handle that fails R264. Marked bytes of the record or of
the history poison the slot (R243, R255); in TV3200 mode they are not delivered (R256). -/
def State.loadCtx (s : State) (slot l : Nat) (reset : Bool) : State × Option W16 :=
  match s.vacate slot l with
  | (s, some e) => (s, some e)
  | (s, none) =>
    if (s.lane l).loaded = some slot then (s, none)
    else match s.checkUse s.ctxBase (4096 * slot) 4096 1 none with
      | some e => (s, some e)
      | none =>
        let (s, b, m) := s.bufRead s.ctxBase (4096 * slot) 4096
        if m && s.busErr then (s, some St.POISON)
        else match Ctx.ofRecord b [] m with
          | none => (s.raise F.CMP_STAT.CTX_BAD, some St.BAD_PARAM)
          | some c0 =>
            if !c0.init && !reset then (s.raise F.CMP_STAT.CTX_BAD, some St.BAD_PARAM)
            else if hClass c0.window ≠ 3 then (s, some St.BAD_PARAM)
            else match s.checkUse c0.window 0 262144 1 none with
              | some e => (s, some e)
              | none =>
                let (s, w, m') := s.bufRead c0.window 0 (min c0.histLen 262144)
                if m' && s.busErr then (s, some St.POISON)
                else
                  let c := (Ctx.ofRecord b w (m || m')).getD c0
                  (s.setLane l { loaded := some slot, ctx := c }, none)

/-! ## History -/

/-- A context after a reset of its history (R227), in a command's role (R235). The slot counts as initialised; the code lengths of
the last coded bundle stay in the compression role (R237). -/
def Ctx.reset (c : Ctx) (decomp : Bool) : Ctx :=
  { Ctx.fresh decomp c.window with codeLens := if decomp || c.decomp then [] else c.codeLens }

/-- The entry of the match-finder heads for the four bytes of a position (R237). -/
def headOf (c : Ctx) (p : Nat) : Nat :=
  let b (k : Nat) : Nat := (c.hist.get (fun _ => 0) ((p + k) % 262144)).toNat
  (b 0 + 2 ^ 8 * b 1 + 2 ^ 16 * b 2 + 2 ^ 24 * b 3) * 0x9E3779B1 % 2 ^ 32 / 2 ^ 22

/-- Original bytes enter a context's history (R227, R236); a compression context's heads take the new positions (R237). -/
def Ctx.append (c : Ctx) (l : List Byte) : Ctx :=
  let n := l.length
  let hist := (List.range n).foldl (fun m k => m.set (fun _ => 0) ((c.total + k) % 262144) (l.getD k 0)) c.hist
  let c' := { c with
    hist := hist, total := c.total + n, histLen := min (c.histLen + n) 262144, wpos := (c.total + n) % 262144
    bundles := c.bundles + 1 }
  if c.decomp then c'
  else
    let lo := c.total - 3
    let new := (List.range (c'.total - 3 - lo)).map (· + lo)
    { c' with heads := new.foldl (fun m p => m.set (fun _ => 0) (headOf c' p) (2 ^ 23 + p % 262144)) c'.heads }

/-- What the decoder sees of a context's history. -/
def Ctx.view (c : Ctx) : Thatch.Hist := { len := c.histLen, pos := c.wpos, win := c.hist }

/-! ## Commands -/

/-- Slot a CMP command names. -/
def cmpSlot (d : List Byte) : Nat := dArg d % 64
/-- Reset flag of a CMP command. -/
def cmpReset (d : List Byte) : Bool := (dArg d).testBit 6

/-- The command at the head of a lane's queue (R235), if EPLL runs (R15), it has this code, FENCE lets it start, and no earlier command names its
slot. -/
def State.laneReady (s : State) (l code : Nat) : Option Cmd :=
  match (s.cmds 0).find? fun c => c.lane == some l with
  | none => none
  | some c =>
    let before := (s.cmds 0).any fun x => decide (x.seq < c.seq) && cmpSlot x.desc == cmpSlot c.desc
    if s.clocked ∧ dCode c.desc = code ∧ s.fenceOpen c ∧ !before then some c else none

/-- A command of a lane starts and is carried out. -/
def runLane (l code : Nat) (s : State) (f : Cmd → State → State) : Res :=
  match s.laneReady l code with
  | none => .next s
  | some c =>
    let s := s.start c
    .next (if c.badOwner then s.finish c St.BAD_OWNER else f c s)

/-- The context a bundle command runs with (R235, R238): loaded, in its role, reset where asked; or the status that ends the
command. -/
def State.bundleCtx (s : State) (c : Cmd) (l : Nat) (decomp : Bool) : State × Option W16 :=
  let reset := cmpReset c.desc
  let (s, bad) := s.loadCtx (cmpSlot c.desc) l reset
  match bad with
  | some e => (s, some e)
  | none =>
    let x := (s.lane l).ctx
    if x.decomp != decomp && !reset then (s, some St.BAD_PARAM)
    else (if reset then s.setCtx l (x.reset decomp) else s, none)

/-- Whether two contexts have one record (R235, R239) over one window. -/
def Ctx.alike (x y : Ctx) : Bool := x.record == y.record && x.hist == y.hist

/-- The body that a lane makes of a context record and input: the one it made of the same before (R239), else the one given. -/
def State.laneBody (s : State) (x : Ctx) (input body : List Byte) : List Byte :=
  match s.coded.find? fun k => k.ctx.alike x && k.input == input with
  | some k => k.body
  | none => body

/-- What a lane makes of a context record and input is what every lane makes of them from then on (R239). -/
def State.keepCoded (s : State) (x : Ctx) (input body : List Byte) : State :=
  if s.coded.any fun k => k.ctx.alike x && k.input == input then s else { s with coded := s.coded ++ [⟨x, input, body⟩] }

/-- What a lane makes of an input and a coded body (R240, R241): whether the verify lane decodes the body to the input, whether the
body passes the size test, and the context after it. The input enters the history in every case; a verify failure leaves every
head invalid. -/
def Ctx.code (gain : Nat) (x : Ctx) (input body : List Byte) : Bool × Bool × Ctx :=
  let small := 100 * body.length < (100 - min gain 50) * input.length
  let after := x.append input
  match Thatch.body input.length x.view x.rep body with
  | .error _ => (false, small, { after with heads := [] })
  | .ok r =>
    if r.out ≠ input then (false, small, { after with heads := [] })
    else (true, small, if small then { after with rep := r.rep, codeLens := r.lens } else after)

/-- COMPRESS once its context is ready: the bundle's input, whether it is poisoned, and the coded body the lane makes of it. The
verify lane decodes that body (R240); NO_GAIN by R241; the input enters the history in every case. -/
def State.compressBundle (s : State) (c : Cmd) (l : Nat) (body input : List Byte) (marked : Bool) : State :=
  let x := (s.lane l).ctx
  let body := s.laneBody x input body
  let s := s.keepCoded x input body
  let poisoned := x.poisoned || marked
  let (ok, small, after) := x.code (s.fld F.CMP_CTL.GAIN_PCT) input body
  let s := s.setCtx l { after with poisoned := poisoned }
  if !ok then
    let s := ((s.raise F.CMP_STAT.VFY_MISMATCH).bump F.CMP_CNT1.VFY_FAIL).bump F.CMP_CNT0.NO_GAIN_CNT
    let s := s.report 0x0901 (l + 256 * cmpSlot c.desc)
    s.finish c (if poisoned then St.POISON else St.NO_GAIN) 16 0 poisoned
  else if !small then
    (s.bump F.CMP_CNT0.NO_GAIN_CNT).finish c (if poisoned then St.POISON else St.NO_GAIN) 0 0 poisoned
  else
    let b := Thatch.header input.length body.length ++ body
    let s := s.taWrite (dB c.desc) b poisoned
    if poisoned then s.finish c St.POISON 0 b.length true
    else (s.bump F.CMP_CNT0.BUNDLES).finish c St.OK 0 b.length

/-- A command of a slot ends in TV3200 mode because its input is poisoned: POISON with no output, and the slot's flag is set (R243,
R256). -/
def State.poisonSlot (s : State) (c : Cmd) (l : Nat) : State := (s.setCtx l { (s.lane l).ctx with poisoned := true }).finish c St.POISON

/-- COMPRESS (R233, R239 to R244) on a lane, with the body that the lane codes where it has not met the context and input before. -/
def execCompress (lane : Fin 8) (body : List Byte) (s : State) : Res :=
  runLane lane 1 s fun c s =>
    let d := c.desc
    let n := dC d
    if n = 0 ∨ 65536 < n ∨ dD d < n + 5 then s.finish c St.BAD_PARAM
    else match firstBad [s.engCheck c (dA d) n, s.engCheckW c (dB d) (dD d)] with
      | some e => s.finish c e
      | none =>
        match s.bundleCtx c lane false with
        | (s, some e) => s.finish c e
        | (s, none) =>
          let (s, input, m) := s.taRead (dA d) n
          if m && s.busErr then s.poisonSlot c lane
          else s.compressBundle c lane body input m

/-- DECOMPRESS once its context is ready: the bundle decoded, or rejected with its reason and its output zeroed (R244); a poisoned
input or slot ends it POISON in either case (R243). -/
def State.decompressBundle (s : State) (c : Cmd) (l : Nat) (b : List Byte) (marked : Bool) : State :=
  let x := (s.lane l).ctx
  let poisoned := x.poisoned || marked
  let s := s.setBufOf (taHandle (dB c.desc)) { s.bufOf (taHandle (dB c.desc)) with
    provisional := (s.bufOf (taHandle (dB c.desc))).provisional || (s.bufOf (taHandle (dA c.desc))).provisional }
  match Thatch.bundle x.view x.rep x.codeLens b with
  | .error e =>
    let s := s.setCtx l { x with poisoned := poisoned }
    let s := (s.bump F.CMP_CNT1.BAD_CNT).raise F.CMP_STAT.BAD_BUNDLE
    let s := s.taWrite (dB c.desc) (List.replicate (Thatch.origLen b) 0) poisoned
    s.finish c (if poisoned then St.POISON else St.BAD_PARAM) e 0 poisoned
  | .ok r =>
    let s := s.setCtx l { (x.append r.out) with rep := r.rep, poisoned := poisoned }
    let s := s.taWrite (dB c.desc) r.out poisoned
    s.finish c (if poisoned then St.POISON else St.OK) 0 r.out.length poisoned

/-- DECOMPRESS (R233, R242 to R244) on a lane. -/
def execDecompress (lane : Fin 8) (s : State) : Res :=
  runLane lane 2 s fun c s =>
    let d := c.desc
    let n := dC d
    if n = 0 ∨ 65542 < n then s.finish c St.BAD_PARAM
    else match firstBad [s.engCheck c (dA d) n, s.engCheckW c (dB d) (dD d)] with
      | some e => s.finish c e
      | none =>
        let (s, b, m) := s.taRead (dA d) n
        if m && s.busErr then
          match s.bundleCtx c lane true with
          | (s, some e) => s.finish c e
          | (s, none) => s.poisonSlot c lane
        else if dD d < Thatch.origLen b then s.finish c St.BAD_PARAM
        else match s.bundleCtx c lane true with
          | (s, some e) => s.finish c e
          | (s, none) => s.decompressBundle c lane b m

/-- CTX_INIT (R233) on a lane: the slot's context is initialised in a role, with empty history and its window. -/
def execCtxInit (lane : Fin 8) (s : State) : Res :=
  runLane lane 3 s fun c s =>
    let w := BitVec.ofNat 32 (natAt c.desc 12 4)
    let slot := cmpSlot c.desc
    if hClass w ≠ 3 then s.finish c St.BAD_PARAM
    else match s.checkUse w 0 262144 1 none with
      | some e => s.finish c e
      | none =>
        match s.vacate slot lane with
        | (s, some e) => s.finish c e
        | (s, none) =>
          let s := s.setLane lane { loaded := some slot, ctx := Ctx.fresh ((dArg c.desc).testBit 10) w }
          s.finish c St.OK

/-- CTX_SAVE (R233, R238, R244) on a lane: the slot's record and window are written and the slot is unbound. -/
def execCtxSave (lane : Fin 8) (s : State) : Res :=
  runLane lane 4 s fun c s =>
    let slot := cmpSlot c.desc
    match s.saveLanes (s.lanesHolding slot) with
    | (s, some e) => s.finish c e
    | (s, none) => { s with slotLane := s.slotLane.set (fun _ => none) slot none }.finish c St.OK

/-! ## Running the engine (R245) -/

/-- Whether `CMP_CTX_BASE` names a valid buffer of 256 KiB or more. -/
def State.ctxBaseOk (s : State) : Bool := decide (3 ≤ hClass s.ctxBase) && s.handleInClass s.ctxBase && s.handleLive s.ctxBase

/-- A write of 1 to RUN of CMP. -/
def State.cmpOn (s : State) : State :=
  if s.flag F.CMP_CTL.RUN then s
  else if s.ctxBaseOk then s.setFlag F.CMP_CTL.RUN true else s.raise F.CMP_STAT.CTX_BAD

/-- Queued commands of an engine end with a status. -/
def State.endQueued (s : State) (t : Nat) (p : Cmd → Bool) (status : W16) : State :=
  let l := (s.cmds t).filter p
  let s := s.setCmds t ((s.cmds t).filter fun c => !p c)
  s.each l fun s c => s.finish c status

/-- Every lane saves its context and gives it up (R238, R245); one whose save a check forbids is lost. -/
def State.saveAllLanes (s : State) : State := s.each (List.range 8) fun s l => (s.saveLane l).1.emptyLane l

/-- A write of 0 to RUN of CMP: queued commands end NOT_READY, every bound context is saved and unbound. -/
def State.cmpOff (s : State) : State :=
  let s := (s.setFlag F.CMP_CTL.RUN false).endQueued 0 (fun _ => true) St.NOT_READY
  { s.saveAllLanes with slotLane := [] }

end Sys2Proof.Machine
end

