-- ==== Sys2Proof/Machine/Links.lean ====
section
/-!
DEFINITION. One ring link (R388 to R392): what a link word says, acknowledgement and resending, and how a frame of this formatter finds its port past fold edges (R395, R396).
-/
namespace Sys2Proof.Machine

/-! ## Link words (R390) -/

def lwSeq (w : W64) : Nat := w.toNat / 2 ^ 52
def lwAck (w : W64) : Nat := w.toNat / 2 ^ 40 % 4096
def lwAckValid (w : W64) : Bool := w.getLsbD 39
def lwNak (w : W64) : Bool := w.getLsbD 38
def lwFolded (w : W64) : Bool := w.getLsbD 37
def lwHops (w : W64) : Nat := w.toNat / 2 ^ 16 % 2 ^ 16

/-- Whether a link word passes its CRC-16 (DEDUCED, log entry 12). -/
def lwOk (w : W64) : Bool := (crc16 (leBytes 6 (w.toNat / 2 ^ 16)).reverse).toNat == w.toNat % 2 ^ 16

/-! ## Frame headers (R390) -/

def fhClass (h : List Byte) : Nat := natAt h 0 1
def fhDst (h : List Byte) : Nat := natAt h 2 2
def fhSrc (h : List Byte) : Nat := natAt h 4 2
def fhMsg (h : List Byte) : Nat := natAt h 6 2
def fhOff (h : List Byte) : Nat := natAt h 8 4
def fhTotal (h : List Byte) : Nat := natAt h 12 4
def fhLen (h : List Byte) : Nat := natAt h 16 2

/-- Whether a frame passes its CRC-32C (R390). -/
def frameOk (f : RingFrame) : Bool := !f.stomped && crc32c (f.header ++ f.payload) == f.crc

/-! ## Acknowledgement and resending (R392) -/

/-- How many of the unacknowledged frames an ACK acknowledges: those before the sequence it names, where that lies among them or
just after. -/
def ackCount (l : List OutFrame) (ack : Nat) : Nat :=
  match l with
  | [] => 0
  | f :: _ => let n := (ack + 4096 - f.seq) % 4096; if n ≤ l.length then n else 0

/-- An acknowledgement taken: frames before it are no longer kept, and progress starts the count of resends anew. -/
def State.takeAck (s : State) (p : Port) (ack : Nat) : State :=
  let r := s.rport p
  let n := ackCount r.unacked ack
  if n = 0 then s
  else
    let s := s.setRport p { r with unacked := r.unacked.drop n, resends := 0 }
    s.releaseHeld p (s.rport p).held

/-- A link goes down (R389). -/
def State.linkDown (s : State) (p : Port) : State :=
  if s.portState p = PortSt.up then s.setFld (portField p) PortSt.down else s

/-- Every unacknowledged frame leaves again, counted; the sixteenth resend in a row without progress takes the link down (R389,
R392). -/
def State.resend (s : State) (p : Port) : State :=
  let r := s.rport p
  if r.unacked.isEmpty then s
  else
    let s := s.bump F.RNG_CNT.RESENDS r.unacked.length
    let s := s.each r.unacked fun s f => s.ringEmit p f
    let s := s.setRport p { s.rport p with resends := r.resends + 1 }
    if 16 ≤ r.resends + 1 then s.linkDown p else s

/-- RING_RESEND_TIMEOUT (R392): 10 µs without progress with frames outstanding. -/
def execRingResendTimeout (p : Port) (s : State) : Res := whileClocked s <| .next (if s.portUp p then s.resend p else s)

/-- An acknowledgement that no frame carries leaves in a block of its own (R392). -/
def State.sendAck (s : State) (p : Port) : State :=
  let r := s.rport p
  if s.portUp p && (r.ackDue || r.nakDue) then
    let (s, blocks) := s.laneControl p (Config.ackBlock r.expect r.nakDue)
    (s.emit (.ringAck p r.expect r.nakDue blocks)).setRport p { r with ackDue := false, nakDue := false }
  else s

/-- RING_LINK_DOWN (R389): a receive lane has been without block lock for 1 µs. -/
def execRingLinkDown (p : Port) (s : State) : Res := whileClocked s <| .next (s.linkDown p)

/-! ## Leaving past fold edges (R396) -/

/-- A frame of this formatter put to a port, or, where that port is a fold edge, to the other with FOLDED set. False where both
are fold edges, so that nothing leaves. -/
def State.ringSend (s : State) (p : Port) (header payload : List Byte) : State × Bool :=
  if !(s.rport p).foldEdge then (s.ringPut p false 0 header payload, true)
  else if !(s.rport (Port.opp p)).foldEdge then (s.ringPut (Port.opp p) true 0 header payload, true)
  else (s, false)

/-- The next message number of this formatter. -/
def State.newMsg (s : State) : State × W16 :=
  ({ s with rng := { s.rng with nextMsg := s.rng.nextMsg + 1 } }, s.rng.nextMsg)

/-- A receipt (R391) to a device, by a port.
DEDUCED: log entry 54. -/
def State.receiptTo (s : State) (p : Port) (dst msg : Nat) (st : W16) : State :=
  let (s, m) := s.newMsg
  let b := leBytes 2 msg ++ leBytes 2 st.toNat
  (s.ringSend p (frameHeader 0x02 true dst s.devId m.toNat 0 4 4) b).1

end Sys2Proof.Machine
end

