-- ==== Sys2Proof/Machine/Team.lean ====
section
/-!
DEFINITION. The redundancy engine (R405 to R433): the team record, parity chains and mirrors, rebuilds, and the leak map.
-/
namespace Sys2Proof.Machine

/-! ## The team record (R405, R406, R411) -/

/-- The word of transactional register `a` as TEAM reads it from the image (R329, R412): checks 1 to 3 of R264 hold for it (R265), and a
verify that the read asks for (R252) corrects what is delivered; zero where a check fails.
DEDUCED: log entry 114. -/
def State.imageWord (s : State) (a : Nat) : Nat :=
  let h := s.imageHandle
  if (s.checkUse h (8 * a) 8 1 none).isSome then 0
  else
    let sp := s.spansOf h (8 * a) 8
    natAt ((s.rangeUse sp).1.rangeBytes sp) 0 8

/-- Word w of a slot's record (R411, R412). -/
def State.tw (s : State) (t w : Nat) : Nat := s.imageWord (0x10000 + 0x8000 * t + w)

def State.teamId (s : State) (t : Nat) : Nat := s.tw t 0 % 2 ^ 32
def State.teamGen (s : State) (t : Nat) : Nat := s.tw t 0 / 2 ^ 32 % 2 ^ 16
def State.teamLayout (s : State) (t : Nat) : Nat := s.tw t 0 / 2 ^ 48 % 8
def State.teamK (s : State) (t : Nat) : Nat := s.tw t 0 / 2 ^ 51 % 32
def State.teamRidge (s : State) (t : Nat) : Bool := (s.tw t 0).testBit 56
def State.teamN (s : State) (t : Nat) : Nat := s.tw t 0 / 2 ^ 57
def State.teamState (s : State) (t : Nat) : Nat := s.tw t 1 % 16
def State.teamSelf (s : State) (t : Nat) : Nat := s.tw t 1 / 16 % 32
def State.teamLeader (s : State) (t : Nat) : Nat := s.tw t 1 / 2 ^ 32 % 2 ^ 16
def State.teamSecond (s : State) (t : Nat) : Nat := s.tw t 1 / 2 ^ 48
def State.memberDev (s : State) (t m : Nat) : Nat := s.tw t (0x10 + m) % 2 ^ 16
def State.memberLost (s : State) (t m : Nat) : Bool := (s.tw t (0x10 + m)).testBit 18
def State.memberRebuilding (s : State) (t m : Nat) : Bool := (s.tw t (0x10 + m)).testBit 19
def State.lossStripe (s : State) (t m : Nat) : Nat := s.tw t (0x10 + m) / 2 ^ 32

/-- Members of a layout (R405). -/
def State.memberCount (s : State) (t : Nat) : Nat :=
  match s.teamLayout t with
  | 1 => s.teamK t
  | 2 => s.teamK t
  | 3 => s.teamK t + 1
  | 4 => s.teamK t + 2
  | _ => 0

/-- The redundancy r of a layout (R405). -/
def State.redundancy (s : State) (t : Nat) : Nat :=
  match s.teamLayout t with
  | 1 => s.teamK t - 1
  | 3 => 1
  | 4 => 2
  | _ => 0

/-- Bytes of a unit (R407). -/
def State.unitLen (s : State) (t : Nat) : Nat := s.teamN t * 229376

/-- Stripes per region (R409). -/
def State.spr (s : State) (t : Nat) : Nat := if s.teamRidge t then 14 else 16

/-- Whether a slot is active with a layout (R413). -/
def State.slotActive (s : State) (t : Nat) : Bool := decide (t < 2) && s.flag F.TEAM_SLOT.ACT t && s.teamLayout t != 0

/-- Whether a member keeps data units: a data member, or a copy of a mirror (R406). -/
def State.isData (s : State) (t m : Nat) : Bool := decide (m < s.teamK t)
/-- Whether a member is the P member (R406). -/
def State.isP (s : State) (t m : Nat) : Bool := decide (3 ≤ s.teamLayout t) && m == s.teamK t
/-- Whether a member is the Q member (R406). -/
def State.isQ (s : State) (t m : Nat) : Bool := s.teamLayout t == 4 && m == s.teamK t + 1

/-- The members that are not lost, in the order of R414. -/
def State.liveMembers (s : State) (t : Nat) : List Nat := (List.range (s.memberCount t)).filter fun m => !s.memberLost t m

/-- The LOST mask of a record. -/
def State.lostMask (s : State) (t : Nat) : Nat :=
  (List.range (s.memberCount t)).foldl (fun n m => if s.memberLost t m then n + 2 ^ m else n) 0

/-- A byte of the null unit (R408). -/
def nullByte (off : Nat) : Byte := if off = 1 then 0x7A else 0
/-- Bytes of the null unit from an offset. -/
def nullBytes (off n : Nat) : List Byte := (List.range n).map fun k => nullByte (off + k)

/-! ## Chains (R414, R419, R428) -/

/-- Whether a chain rebuilds member x rather than forming parity or copies (R428). -/
def State.rebuilds (s : State) (c : Chain) : Bool :=
  c.receiver || (c.x != s.teamSelf c.slot && s.memberRebuilding c.slot c.x)

/-- The contributors to a rebuild of member x (R428). -/
def State.contributors (s : State) (t x : Nat) : List Nat :=
  let l := (s.liveMembers t).filter fun m => m != x
  if s.teamLayout t = 1 then l.take 1 else l

/-- The members a chain visits, in order (R414, R419), the receiver of a rebuild left out. -/
def State.chainOrder (s : State) (c : Chain) : List Nat :=
  if s.rebuilds c then s.contributors c.slot c.x else s.liveMembers c.slot

/-- The element before one in a list. -/
def before : List Nat → Nat → Option Nat
  | a :: b :: l, m => if b = m then some a else before (b :: l) m
  | _, _ => none

/-- The element after one in a list. -/
def after : List Nat → Nat → Option Nat
  | a :: b :: l, m => if a = m then some b else after (b :: l) m
  | _, _ => none

/-- The member before this one in a chain; a receiver comes after the last contributor. -/
def State.chainPrev (s : State) (c : Chain) : Option Nat :=
  if c.receiver then (s.chainOrder c).getLast? else before (s.chainOrder c) (s.teamSelf c.slot)

/-- The member after this one in a chain: for the last contributor to a rebuild the receiver, which its READY has named. -/
def State.chainNext (s : State) (c : Chain) : Option Nat :=
  if c.receiver then none
  else match after (s.chainOrder c) (s.teamSelf c.slot) with
    | some m => some m
    | none => if s.rebuilds c then c.readyFrom else none

/-- Whether this member is the end of a chain. -/
def State.chainLast (s : State) (c : Chain) : Bool :=
  c.receiver || (!s.rebuilds c && (s.chainOrder c).getLast? == some (s.teamSelf c.slot))

/-- The halves that travel to a member of a parity chain (R416): a half ends at its parity member, and one whose parity member is
lost goes no further than the last data member. Layout 3 has the P half alone.
DEDUCED: log entry 57. -/
def State.halvesTo (s : State) (t m : Nat) : List Nat :=
  if s.teamLayout t = 1 then [0]
  else if s.isQ t m then [1]
  else if s.isP t m then (if s.teamLayout t = 4 ∧ !s.memberLost t (s.teamK t + 1) then [0, 1] else [0])
  else if s.teamLayout t = 4 then [0, 1] else [0]

/-! ## Frames (R420) -/

/-- A team frame on its way to a device. -/
structure TMsg where
  slot : Nat
  dst : Nat
  cls : Nat
  half : Nat
  stripe : Nat
  mask : Nat
  attempt : Nat
  off : Nat
  total : Nat
  msg : W16
  body : List Byte
  deriving DecidableEq, Repr

/-- What a team frame says to the member it reaches: slot, sender, class, half, stripe, erasure mask, attempt, offset, body. -/
structure TIn where
  slot : Nat
  sender : Nat
  cls : Nat
  half : Nat
  stripe : Nat
  mask : Nat
  attempt : Nat
  off : Nat
  body : List Byte
  deriving DecidableEq, Repr

/-- The attempt of a stripe's chain under the record in force: how often it has restarted, once for each LOST member whose LOSS_STRIPE
it reaches (R420, R421).
DEDUCED: log entry 31. -/
def State.attempt (s : State) (t stripe : Nat) : Nat :=
  ((List.range (s.memberCount t)).filter fun m => s.memberLost t m && decide (s.lossStripe t m ≤ stripe)).length

/-- The prefix of a team frame (R420). -/
def State.teamPrefix (s : State) (m : TMsg) : List Byte :=
  leBytes 4 (s.teamId m.slot) ++ leBytes 2 (s.teamGen m.slot) ++ leBytes 1 (s.teamSelf m.slot) ++ leBytes 1 m.half ++
    leBytes 4 m.stripe ++ leBytes 3 m.mask ++ leBytes 1 m.attempt

/-- The port that PORT of `TEAM_CTL` names (R414). -/
def State.teamPort (s : State) : Port := if s.flag F.TEAM_CTL.PORT then .west else .east

/-- A frame without a slice: message of one payload. -/
def State.plainMsg (s : State) (t dev cls stripe attempt : Nat) (body : List Byte) : State × TMsg :=
  let (s, m) := s.newMsg
  (s, { slot := t, dst := dev, cls := cls, half := 0, stripe := stripe, mask := 0, attempt := attempt, off := 0,
        total := 16 + body.length, msg := m, body := body })

/-- The same frame to several devices. -/
def State.plainMsgs (s : State) (t cls stripe attempt : Nat) (body : List Byte) : List Nat → State × List TMsg
  | [] => (s, [])
  | d :: ds =>
    let (s, m) := s.plainMsg t d cls stripe attempt body
    let (s, ms) := State.plainMsgs s t cls stripe attempt body ds
    (s, m :: ms)

/-! ## Chain bookkeeping -/

/-- A chain of the list, changed. -/
def State.updChain (s : State) (c : Chain) (f : Chain → Chain) : State :=
  { s with team := { s.team with chains := s.team.chains.map fun x => if x.cmd.seq = c.cmd.seq then f x else x } }

/-- The chain as it stands now. -/
def State.chainNow (s : State) (c : Chain) : Chain := (s.team.chains.find? fun x => x.cmd.seq == c.cmd.seq).getD c

/-- A STRIPE or REBUILD_READ ends. -/
def State.endChain (s : State) (c : Chain) (st : W16) : State :=
  let s := { s with team := { s.team with chains := s.team.chains.filter fun x => x.cmd.seq != c.cmd.seq } }
  let s := if st ≠ St.OK then s
    else if c.receiver then s.bump F.TEAM_CNT1.REBUILT
    else if c.x = s.teamSelf c.slot then s.bump F.TEAM_CNT0.STRIPES else s
  s.finish c.cmd st

/-- The members of a chain other than this one. A rebuild's receiver is the member whose READY has named it; where this member has
heard none, it is one of the contributors or the replacement of the lost member.
DEDUCED: log entry 58. -/
def State.chainOthers (s : State) (c : Chain) : List Nat :=
  let me := s.teamSelf c.slot
  let l := (s.chainOrder c).filter fun m => m != me
  let last := (s.chainOrder c).getLast? == some me
  let receiver := if !s.rebuilds c || c.receiver then none else if last then c.readyFrom else some c.x
  match receiver with
  | some m => if m != me && !l.contains m then l ++ [m] else l
  | none => l

/-- STRIPE and REBUILD_READ of a stripe, and every later STRIPE of its slot, end with a status; the next expected stripe returns
to the first of them that this member offered (R418). Those still queued end with them. Each chain that ends so is counted (R433). -/
def State.abortStripe (s : State) (t stripe : Nat) (st : W16) : State :=
  let me := s.teamSelf t
  let gone := s.team.chains.filter fun c => c.slot == t && (c.stripe == stripe || (!c.receiver && decide (stripe < c.stripe)))
  let queued := (s.cmds 3).filter fun c => dCode c.desc == 1 && dArg c.desc == t && decide (stripe ≤ dC c.desc)
  let own := (gone.filter fun c => !c.receiver && c.x == me).map fun c => c.stripe
  if gone.isEmpty then s
  else
    let s := s.each gone fun s c => s.endChain c st
    let s := s.each queued fun s c => (s.start c).finish c st
    let s := match own with
      | [] => s
      | x :: xs => s.setFld F.TEAM_NEXT.STRIPE (xs.foldl min x) t
    (s.bump F.TEAM_CNT0.ABORTS gone.length).raise F.TEAM_STAT.ABORT_SEEN

/-- This member aborts a chain: ABORT to its other members, then its own part (R418). `lost` is the unreachable member. -/
def State.abortChain (s : State) (c : Chain) (st : W16) (lost : Option Nat) : State × List TMsg :=
  let dev := (s.chainOthers c).map fun m => s.memberDev c.slot m
  let (s, ms) := s.plainMsgs c.slot 0x14 c.stripe c.attempt (leBytes 2 st.toNat ++ leBytes 1 (lost.getD 0)) dev
  let s := match lost with
    | some m => s.setFld F.TEAM_STAT.UNREACH_ID (s.memberDev c.slot m)
    | none => s
  (s.abortStripe c.slot c.stripe st, ms)

/-! ## Slices (R416, R419, R428) -/

/-- What member m of a chain adds to a half of its slice: D, or α^m · D (R416); a parity member to a rebuild its own bytes, to its
own accumulator only (R428). -/
def State.part (s : State) (t m half : Nat) (d : List Byte) : List Byte :=
  if s.isP t m then (if half = 0 then d else d.map fun _ => 0)
  else if s.isQ t m then (if half = 1 then d else d.map fun _ => 0)
  else if half = 0 then d else d.map (gfMul (gfPow m))

/-- The null units of the lost data members that satisfy a condition, as they add to a half (R408, R416, R428). -/
def State.nullPart (s : State) (t half off : Nat) (p : Nat → Bool) : List Byte :=
  ((List.range (s.teamK t)).filter fun m => s.memberLost t m && p m).foldl
    (fun b m => xorBytes b (s.part t m half (nullBytes off 1024))) (List.replicate 1024 0)

/-- This member's bytes of a slice, and whether one is marked. -/
def State.unitSlice (s : State) (c : Chain) (off : Nat) : State × List Byte × Bool :=
  s.bufRead (taHandle (dA c.cmd.desc)) (taOff (dA c.cmd.desc) + off) 1024

/-- A slice sent on to the member after this one, as a frame of the chain's message for its half. -/
def State.sliceMsg (s : State) (c : Chain) (next half off mask : Nat) (body : List Byte) : TMsg :=
  let cls := if s.rebuilds c then 0x15 else if s.teamLayout c.slot = 1 then 0x12 else 0x10
  { slot := c.slot, dst := s.memberDev c.slot next, cls := cls, half := half, stripe := c.stripe, mask := mask,
    attempt := c.attempt, off := off, total := s.unitLen c.slot, msg := c.msgs.getD half 0, body := body }

/-- Whether a marked byte of its unit makes this member abort the chain (R255, R256, R418): always but in a rebuild, which forwards its
sums without it (R429) unless BUSERR_MODE is 1.
DEDUCED: log entry 58. -/
def State.markStops (s : State) (c : Chain) : Bool := !s.rebuilds c || s.busErr

/-- A slice of an accumulator with this contributor's part added; one that holds a marked byte adds nothing and sets this
member's bit of the mask (R429). -/
def State.contribute (s : State) (c : Chain) (half off mask : Nat) (acc : List Byte) : State × List Byte × Nat :=
  let me := s.teamSelf c.slot
  let (s, d, m) := s.unitSlice c off
  if m then (s, acc, mask ||| 2 ^ me) else (s, xorBytes acc (s.part c.slot me half d), mask)

/-- The slices that the first member of a chain sends, from a list of offsets (R416, R419, R428). -/
def State.firstSlices (s : State) (c : Chain) (next : Nat) : List Nat → State × List TMsg
  | [] => (s, [])
  | off :: offs =>
    let me := s.teamSelf c.slot
    let zero := List.replicate 1024 (0 : Byte)
    let (s, ms) :=
      if s.rebuilds c then
        let (s, a, ma) := s.contribute c 0 off 0 zero
        let (s, b, mb) := s.contribute c 1 off 0 zero
        (s, [s.sliceMsg c next 0 off ma a, s.sliceMsg c next 1 off mb b])
      else if s.teamLayout c.slot = 1 then
        let (s, d, _) := s.unitSlice c off
        (s, [s.sliceMsg c next 0 off 0 d])
      else
        let (s, d, _) := s.unitSlice c off
        (s, (s.halvesTo c.slot next).map fun h =>
          s.sliceMsg c next h off 0 (xorBytes (s.part c.slot me h d) (s.nullPart c.slot h off fun _ => true)))
    let (s, rest) := State.firstSlices s c next offs
    (s, ms ++ rest)

/-- Offsets of the slices of a unit (R416). -/
def State.sliceOffs (s : State) (t : Nat) : List Nat := (List.range (224 * s.teamN t)).map (1024 * ·)

/-- A parity member or copy whose N exceeds TEAM_N writes zero beyond its unit (R407), and so does one that rebuilds its own unit. -/
def State.padUnit (s : State) (c : Chain) : State :=
  let me := s.teamSelf c.slot
  let h := taHandle (dA c.cmd.desc)
  let o := taOff (dA c.cmd.desc) + s.unitLen c.slot
  let n := min (s.activeList.length * 229376 - s.unitLen c.slot) (classSize (hClass h) - o)
  let parity := s.isP c.slot me || s.isQ c.slot me
  let writes := if c.receiver then c.x == me && (parity || s.teamLayout c.slot == 1)
    else !s.rebuilds c && (parity || c.x != me)
  if writes && n != 0 then s.bufWrite h o (List.replicate n 0) false else s

/-- The last member of a chain ends it: DONE to every other, and from a receiver to every contributor, itself among them where it
is one; then its own command (R417, R428, R429).
DEDUCED: log entry 58. -/
def State.chainDone (s : State) (c : Chain) : State × List TMsg :=
  let dev := (if c.receiver then s.chainOrder c else s.chainOthers c).map fun m => s.memberDev c.slot m
  let (s, ms) := s.plainMsgs c.slot 0x13 c.stripe c.attempt [] dev
  let s := s.padUnit c
  if c.lost then
    let s := (s.raise F.TEAM_STAT.STRIPE_LOST_SEEN).bump F.TEAM_CNT0.LOSTS
    ((s.report 0x1001 (c.slot + c.stripe * 2 ^ 32)).endChain c St.STRIPE_LOST, ms)
  else (s.endChain c St.OK, ms)

/-- Whether every slice that travels to this member has arrived. -/
def State.chainFull (s : State) (c : Chain) : Bool :=
  let h := if s.rebuilds c then 2 else (s.halvesTo c.slot (s.teamSelf c.slot)).length
  decide (h * (224 * s.teamN c.slot) ≤ c.got.length)

/-! ## Solving (R428, R429) -/

/-- The slice of member L from the sums A and B, where `miss` are the members missing from them (R428): none where no row of the
table fits, or where more than r + 1 are missing.
DEDUCED: log entry 57. -/
def State.solve (s : State) (t l : Nat) (miss : List Nat) (a b : List Byte) : Option (List Byte) :=
  let k := s.teamK t
  let pOk := decide (3 ≤ s.teamLayout t) && !miss.contains k
  let qOk := s.teamLayout t == 4 && !miss.contains (k + 1)
  let y := miss.filter fun m => m != l && decide (m < k)
  let inv (m : Nat) (x : List Byte) : List Byte := x.map fun v => gfDiv v (gfPow m)
  if s.redundancy t + 1 < miss.length then none
  else if s.teamLayout t = 1 then (if miss.length = 1 then some a else none)
  else if l < k then
    match y with
    | [] => if pOk then some a else if qOk then some (inv l b) else none
    | [m] =>
      if pOk && qOk then
        some ((xorBytes b (a.map (gfMul (gfPow m)))).map fun v => gfDiv v (gfPow l ^^^ gfPow m))
      else none
    | _ => none
  else if l = k then
    match y with
    | [] => some a
    | [m] => if qOk then some (xorBytes a (inv m b)) else none
    | _ => none
  else
    match y with
    | [] => some b
    | [m] => if pOk then some (xorBytes b (a.map (gfMul (gfPow m)))) else none
    | _ => none

/-- The members missing from the sums of a slice: the lost member, lost members whose null units do not stand for them, and the
contributors of the mask (R428, R429). -/
def State.missing (s : State) (t l stripe mask : Nat) : List Nat :=
  (List.range (s.memberCount t)).filter fun m =>
    m == l || mask.testBit m ||
      (s.memberLost t m && s.teamLayout t != 1 && !(s.isData t m && decide (s.lossStripe t m ≤ stripe)))

/-- A receiver has both sums of a slice: the slice is solved and written, or written as zeros with the poison mark (R429). -/
def State.solveSlice (s : State) (c : Chain) (off mask : Nat) (a b : List Byte) : State :=
  let t := c.slot
  let stands (m : Nat) : Bool := s.teamLayout t != 1 && decide (m ≠ c.x) && decide (s.lossStripe t m ≤ c.stripe)
  let a := xorBytes a (s.nullPart t 0 off stands)
  let b := xorBytes b (s.nullPart t 1 off stands)
  let h := taHandle (dA c.cmd.desc)
  let o := taOff (dA c.cmd.desc) + off
  match s.solve t c.x (s.missing t c.x c.stripe mask) a b with
  | some d => s.bufWrite h o d false
  | none => (s.bufWrite h o (List.replicate 1024 0) true).updChain c fun c => { c with lost := true }

/-- A receiver with no contributor left solves every slice from empty sums: what lost members' null units do not give is written as
zeros with the poison mark (R428, R429). -/
def State.solveAlone (s : State) (c : Chain) : State :=
  let zero := List.replicate 1024 (0 : Byte)
  let mask := if s.teamLayout c.slot = 1 then s.lostMask c.slot else 0
  s.each (s.sliceOffs c.slot) fun s off => s.solveSlice c off mask zero zero

/-- What a chain does once READY stands where R415 asks for it: READY goes backward, the first member sends its unit, and a chain
of one member ends. -/
def State.chainTick (s : State) (c : Chain) : State × List TMsg :=
  let t := c.slot
  if c.readySent then (s, [])
  else
    let prev := s.chainPrev c
    if !s.chainLast c && c.readyFrom.isNone then (s, [])
    else match prev with
      | some m =>
        let (s, x) := s.plainMsg t (s.memberDev t m) 0x11 c.stripe c.attempt []
        (s.updChain c fun c => { c with readySent := true, msgs := c.msgs ++ [x.msg] }, [x])
      | none =>
        if c.receiver then
          let s := s.solveAlone c
          s.chainDone (s.chainNow c)
        else match s.chainNext c with
          | none => s.chainDone c
          | some next =>
            let s := s.updChain c fun c => { c with readySent := true }
            let (s, _, m) := s.bufRead (taHandle (dA c.cmd.desc)) (taOff (dA c.cmd.desc)) (s.unitLen t)
            if m && s.markStops c then s.abortChain c St.POISON none else s.firstSlices c next (s.sliceOffs t)

/-! ## What a frame does to the member it reaches -/

/-- A slice reaches a receiver. -/
def State.receiverSlice (s : State) (c : Chain) (f : TIn) : State × List TMsg :=
  let s := s.updChain c fun c => { c with got := c.got ++ [(f.half, f.off)] }
  let s := match c.slices.find? fun x => x.off == f.off && x.half != f.half with
    | none => s.updChain c fun c => { c with slices := c.slices ++ [(⟨f.half, f.off, f.body, f.mask⟩ : Slice)] }
    | some x =>
      let s := s.updChain c fun c => { c with slices := c.slices.erase x }
      if f.half = 0 then s.solveSlice c f.off (f.mask ||| x.mask) f.body x.bytes
      else s.solveSlice c f.off (f.mask ||| x.mask) x.bytes f.body
  let c := s.chainNow c
  if s.chainFull c then s.chainDone c else (s, [])

/-- A slice of a parity chain reaches this member: added and forwarded, or kept by its parity member (R416). -/
def State.paritySlice (s : State) (c : Chain) (f : TIn) : State × List TMsg :=
  let t := c.slot
  let me := s.teamSelf t
  let s := s.updChain c fun c => { c with got := c.got ++ [(f.half, f.off)] }
  let keep := (s.isP t me && f.half == 0) || (s.isQ t me && f.half == 1)
  let (s, body, m) :=
    if s.isData t me then
      let (s, d, m) := s.unitSlice c f.off
      (s, xorBytes f.body (s.part t me f.half d), m)
    else (s, f.body, false)
  if m then s.abortChain c St.POISON none else
  let s := if keep then s.bufWrite (taHandle (dA c.cmd.desc)) (taOff (dA c.cmd.desc) + f.off) body false else s
  let ms := match s.chainNext c with
    | some next => if !keep && (s.halvesTo t next).contains f.half then [s.sliceMsg c next f.half f.off 0 body] else []
    | none => []
  let c := s.chainNow c
  if s.chainLast c && s.chainFull c then
    let (s, d) := s.chainDone c
    (s, ms ++ d)
  else (s, ms)

/-- A slice of a mirror reaches a copy: written and forwarded (R419). -/
def State.copySlice (s : State) (c : Chain) (f : TIn) : State × List TMsg :=
  let s := s.updChain c fun c => { c with got := c.got ++ [(f.half, f.off)] }
  let s := s.bufWrite (taHandle (dA c.cmd.desc)) (taOff (dA c.cmd.desc) + f.off) f.body false
  let c := s.chainNow c
  match s.chainNext c with
  | some next => (s, [s.sliceMsg c next 0 f.off 0 f.body])
  | none => if s.chainFull c then s.chainDone c else (s, [])

/-- A slice of a rebuild reaches a contributor: its part is added and the slice forwarded (R428, R429). -/
def State.rebuildSlice (s : State) (c : Chain) (f : TIn) : State × List TMsg :=
  let s := s.updChain c fun c => { c with got := c.got ++ [(f.half, f.off)] }
  let (s, _, m) := s.unitSlice c f.off
  if m && s.markStops c then s.abortChain c St.POISON none else
  let (s, body, mask) := s.contribute c f.half f.off f.mask f.body
  match s.chainNext c with
  | some next => (s, [s.sliceMsg c next f.half f.off mask body])
  | none => (s, [])

/-- Whether a chain is of a frame's slot, stripe and attempt (R420). -/
def Chain.at (c : Chain) (f : TIn) : Bool := c.slot == f.slot && c.stripe == f.stripe && c.attempt == f.attempt

/-- The chain that a frame belongs to (R420): of its slot, stripe and attempt, and of the frame's kind. -/
def State.chainOf (s : State) (f : TIn) : Option Chain :=
  let here (c : Chain) : Bool := c.at f
  match f.cls with
  | 0x15 => s.team.chains.find? fun c => here c && s.rebuilds c && s.chainPrev c == some f.sender
  | 0x10 => s.team.chains.find? fun c => here c && !s.rebuilds c && s.teamLayout f.slot != 1
  | 0x12 => s.team.chains.find? fun c => here c && !s.rebuilds c && s.teamLayout f.slot == 1
  | 0x11 => s.team.chains.find? fun c => here c && !c.receiver && (s.chainNext c == some f.sender || s.chainNext c == none)
  | _ => s.team.chains.find? fun c => here c && !c.receiver

/-- A frame of a chain that this member holds (R415 to R418). -/
def State.chainFrame (s : State) (c : Chain) (f : TIn) : State × List TMsg :=
  match f.cls with
  | 0x11 =>
    let s := s.updChain c fun c => { c with readyFrom := some f.sender }
    s.chainTick (s.chainNow c)
  | 0x13 => ((s.padUnit c).endChain c St.OK, [])
  | _ =>
    if c.got.contains (f.half, f.off) then (s, [])
    else if c.receiver then s.receiverSlice c f
    else if s.rebuilds c then s.rebuildSlice c f
    else if s.teamLayout c.slot = 1 then s.copySlice c f
    else s.paritySlice c f

/-! ## The leak map (R422 to R424) -/

/-- The live window of a slot, bit i for region LOW + i. -/
def State.leakMap (s : State) (t : Nat) : Nat :=
  leNat ((List.range 32).flatMap fun k => leBytes 4 (s.reg (0x1001000 + 0x80 * t + 4 * k)).toNat)

/-- The window replaced. -/
def State.setLeakMap (s : State) (t v : Nat) : State :=
  s.each (List.range 32) fun s k => s.setReg (0x1001000 + 0x80 * t + 4 * k) (BitVec.ofNat 32 (v / 2 ^ (32 * k)))

/-- LOW of the live map. -/
def State.leakLow (s : State) (t : Nat) : Nat := s.fld F.TEAM_LOW.LOW t

/-- The leak window of the record (R411). -/
def State.recordMap (s : State) (t : Nat) : Nat := leNat ((List.range 16).flatMap fun k => leBytes 8 (s.tw t (0x40 + k)))

/-- Whether a region is clean in a window that starts at `low` (R422). -/
def regionClean (low map r : Nat) : Bool := decide (r < low) || (decide (r < low + 1024) && !map.testBit (r - low))

/-- Clean regions at the bottom of the window passed, LOW advancing; regions that enter at its top are dirty (R422). -/
def advanceLow : Nat → Nat → Nat → Nat × Nat
  | 0, low, map => (low, map)
  | n + 1, low, map => if map.testBit 0 then (low, map) else advanceLow n (low + 1) (map / 2 + 2 ^ 1023)

/-- The regions that a member has reported. -/
def State.reportedBy (s : State) (t m : Nat) : List Nat := s.team.reported.get (fun _ => []) (65536 * t + m)

/-- The leader's map with every region clean that each member without LOST has reported (R422), and the regions of a list that
are then clean. -/
def State.applyLeaks (s : State) (t : Nat) (l : List Nat) : State × List Nat :=
  let low := s.leakLow t
  let map := s.leakMap t
  let lists := (s.liveMembers t).map fun m => s.reportedBy t m
  let fresh := ((List.range 1024).map (low + ·)).filter fun r =>
    map.testBit (r - low) && !lists.isEmpty && lists.all fun x => x.contains r
  let map := fresh.foldl (fun v r => v - 2 ^ (r - low)) map
  let (low', map') := advanceLow 1024 low map
  let s := (s.setLeakMap t map').setFld F.TEAM_LOW.LOW low' t
  (s, (l ++ fresh).eraseDups.filter (regionClean low' map'))

/-- Regions in a list as runs of consecutive numbers. -/
def runs : List Nat → List (Nat × Nat)
  | [] => []
  | r :: rs => match runs rs with
    | (f, n) :: l => if r + 1 = f then (r, n + 1) :: l else (r, 1) :: (f, n) :: l
    | [] => [(r, 1)]

/-- CLEAN for regions to every member (R424). -/
def State.cleanMsgs (s : State) (t : Nat) (l : List Nat) : State × List TMsg :=
  let dev := (List.range (s.memberCount t)).map fun m => s.memberDev t m
  (runs l).foldl (fun a e =>
    let (s, ms) := State.plainMsgs a.1 t 0x17 0 0 (leBytes 4 e.1 ++ leBytes 4 e.2) dev
    (s, a.2 ++ ms)) (s, [])

/-- Whether a slot has a second apart from its leader. -/
def State.hasSecond (s : State) (t : Nat) : Bool := s.teamSecond t != 0 && s.teamSecond t != s.teamLeader t

/-- The leader announces a change (R424): MAPCOPY with the new state to the second, whose receipt lets the regions be told clean;
a slot without a second is told at once. -/
def State.announce (s : State) (t : Nat) (l : List Nat) : State × List TMsg :=
  if s.hasSecond t then
    let (s, m) := s.plainMsg t (s.teamSecond t) 0x18 0 0 (leBytes 4 (s.leakLow t) ++ leBytes 128 (s.leakMap t))
    ({ s with team := { s.team with changes := s.team.changes ++ [(⟨m.msg, t, l⟩ : MapChange)] } }, [m])
  else s.cleanMsgs t l

/-- LEAK from a member reaches the leader, or the leader's own regions (R423, R424).
DEDUCED: log entry 59. -/
def State.leakIn (s : State) (t m first count : Nat) : State × List TMsg :=
  let l := (List.range (min count 1024)).map (first + ·)
  let rep := (s.reportedBy t m ++ l).eraseDups.filter fun r => decide (s.leakLow t ≤ r)
  let s := { s with team := { s.team with reported := s.team.reported.set (fun _ => []) (65536 * t + m) rep } }
  let (s, clean) := s.applyLeaks t l
  if clean.isEmpty then (s, []) else s.announce t clean

/-- CLEAN reaches a member: LEAK_COMMITs whose regions are then all covered complete OK (R423).
DEDUCED: log entry 59. -/
def State.cleanIn (s : State) (t first count : Nat) : State :=
  let covers (r : Nat) : Bool := decide (first ≤ r) && decide (r < first + count)
  let upd (j : LeakJob) : LeakJob :=
    if j.slot = t then
      { j with cleaned := (j.cleaned ++ ((List.range j.count).map (j.first + ·)).filter covers).eraseDups }
    else j
  let all := s.team.leaks.map upd
  let done := all.filter fun j => j.sent && decide (j.cleaned.length = j.count)
  let s := { s with team := { s.team with leaks := all.filter fun j => !(j.sent && decide (j.cleaned.length = j.count)) } }
  s.each done fun s j => s.finish j.cmd St.OK

/-! ## Frames in and out -/

/-- A frame discarded under R420. -/
def State.unknownFrame (s : State) : State := s.bump F.TEAM_CNT1.UNKNOWN

/-- A READY for a stripe that this member has not offered yet is kept (R415).
DEDUCED: log entry 58. -/
def State.keepReady (s : State) (f : TIn) : State :=
  let e := (f.slot, f.stripe, f.sender, f.attempt)
  { s with team := { s.team with early := if s.team.early.contains e then s.team.early else s.team.early ++ [e] } }

/-- A team frame whose slot is known reaches this member (R415 to R424). -/
def State.teamTake (s : State) (f : TIn) : State × List TMsg :=
  let leader := s.teamLeader f.slot == s.devId
  match f.cls with
  | 0x16 => if leader then s.leakIn f.slot f.sender (natAt f.body 0 4) (natAt f.body 4 4) else (s.unknownFrame, [])
  | 0x17 => (s.cleanIn f.slot (natAt f.body 0 4) (natAt f.body 4 4), [])
  | 0x18 =>
    if s.teamSecond f.slot == s.devId && !leader then
      ((s.setLeakMap f.slot (natAt f.body 4 128)).setFld F.TEAM_LOW.LOW (natAt f.body 0 4) f.slot, [])
    else (s.unknownFrame, [])
  | 0x14 =>
    if !s.team.chains.any fun c => c.at f then (s.unknownFrame, [])
    else
      let st := BitVec.ofNat 16 (natAt f.body 0 2)
      let s := if st = St.NOT_READY then s.setFld F.TEAM_STAT.UNREACH_ID (s.memberDev f.slot (natAt f.body 2 1)) else s
      (s.abortStripe f.slot f.stripe st, [])
  | 0x11 => match s.chainOf f with
    | some c => s.chainFrame c f
    | none =>
      if s.team.chains.any fun c => c.slot == f.slot && c.stripe == f.stripe && !c.receiver then (s.unknownFrame, [])
      else (s.keepReady f, [])
  | _ =>
    if 0x19 ≤ f.cls then (s.unknownFrame, [])
    else match s.chainOf f with
      | none => (s.unknownFrame, [])
      | some c => s.chainFrame c f

/-- A frame that this member sends itself, as it takes it. -/
def State.selfIn (s : State) (m : TMsg) : TIn :=
  ⟨m.slot, s.teamSelf m.slot, m.cls, m.half, m.stripe, m.mask, m.attempt, m.off, m.body⟩

/-- A frame of a chain cannot leave, as when its receipt says that the next member is not on the ring (R418): the chain whose
message it was aborts. -/
def State.unreachable (s : State) (msg : W16) : State × List TMsg :=
  match s.team.chains.find? fun c => c.msgs.contains msg with
  | none => (s, [])
  | some c =>
    let m := if (c.msgs.take 2).contains msg then s.chainNext c else s.chainPrev c
    s.abortChain c St.NOT_READY (some (m.getD 0))

/-- One frame leaves by the port of `TEAM_CTL`, or is taken by this member itself. -/
def State.teamOut (s : State) (m : TMsg) : State × List TMsg :=
  if m.dst = s.devId then s.teamTake (s.selfIn m)
  else
    let p := s.teamPrefix m ++ m.body
    let last := decide (m.total ≤ m.off + m.body.length + (if m.cls = 0x10 ∨ m.cls = 0x12 ∨ m.cls = 0x15 then 0 else 16))
    let (s, ok) := s.ringSend s.teamPort (frameHeader m.cls last m.dst s.devId m.msg.toNat m.off m.total p.length) p
    if ok then (s, []) else s.unreachable m.msg

/-- Frames leave in order; those a member sends itself are taken at once, with what follows from them. -/
def State.teamPump : Nat → State → List TMsg → State
  | 0, s, _ => s
  | _, s, [] => s
  | n + 1, s, m :: ms =>
    let (s, more) := s.teamOut m
    State.teamPump n s (more ++ ms)

/-- Every frame of a step leaves: a chain of one step sends at most two for each of the 14,336 slices of a unit. -/
def State.teamRun (e : State × List TMsg) : State := State.teamPump 262144 e.1 e.2

/-- The active slot that a frame's TEAM_ID and GEN name (R420); a retired record's frames are discarded (R432). -/
def State.frameSlot (s : State) (b : List Byte) : Option Nat :=
  [0, 1].find? fun t => s.slotActive t && s.teamState t != 7 && s.teamId t == natAt b 0 4 && s.teamGen t == natAt b 4 2

/-- A team frame that has reached its destination (R420); `port` and the header serve the receipt of a MAPCOPY. -/
def State.teamFrame (s : State) (port : Port) (header payload : List Byte) : State :=
  match (if s.flag F.TEAM_CTL.RUN then s.frameSlot payload else none) with
  | none => s.unknownFrame
  | some t =>
      let f : TIn := ⟨t, natAt payload 6 1, fhClass header, natAt payload 7 1, natAt payload 8 4, natAt payload 12 3 % 2 ^ 18,
        natAt payload 15 1, fhOff header, payload.drop 16⟩
      let copied := f.cls == 0x18 && s.teamSecond t == s.devId && s.teamLeader t != s.devId
      let s := State.teamRun (s.teamTake f)
      if copied then s.receiptTo port (fhSrc header) (fhMsg header) St.OK else s

/-- A team frame's row: the frame has its class, passes its CRC-32C and names this formatter. -/
def teamRow (cls : Nat) (f : RingFrame) (s : State) : Res :=
  whileClocked s <|
  if fhClass f.header = cls ∧ frameOk f ∧ fhDst f.header = s.devId then .next (s.teamFrame s.teamPort f.header f.payload)
  else .next s

/-- PARITY (R416). -/
def execParity (f : RingFrame) (s : State) : Res := teamRow 0x10 f s
/-- READY (R415). -/
def execReady (f : RingFrame) (s : State) : Res := teamRow 0x11 f s
/-- TEAM_COPY_FRAME (R419). -/
def execTeamCopyFrame (f : RingFrame) (s : State) : Res := teamRow 0x12 f s
/-- DONE (R417). -/
def execDone (f : RingFrame) (s : State) : Res := teamRow 0x13 f s
/-- ABORT (R418). -/
def execAbort (f : RingFrame) (s : State) : Res := teamRow 0x14 f s
/-- REBUILD (R428, R429). -/
def execRebuild (f : RingFrame) (s : State) : Res := teamRow 0x15 f s
/-- LEAK (R423, R424). -/
def execLeak (f : RingFrame) (s : State) : Res := teamRow 0x16 f s
/-- CLEAN (R423). -/
def execClean (f : RingFrame) (s : State) : Res := teamRow 0x17 f s
/-- MAPCOPY (R424). -/
def execMapcopy (f : RingFrame) (s : State) : Res := teamRow 0x18 f s

/-- A receipt for one of TEAM's own frames: BAD_PARAM says that its destination is not on the ring (R418), OK that the second
holds the copy (R424). -/
def State.teamReceipt (s : State) (msg : W16) (st : W16) : State :=
  if st = St.BAD_PARAM then State.teamRun (s.unreachable msg)
  else if st = St.OK then
    let done := s.team.changes.filter fun x => x.msg == msg
    let s := { s with team := { s.team with changes := s.team.changes.filter fun x => x.msg != msg } }
    s.each done fun s x => State.teamRun (s.cleanMsgs x.slot x.regions)
  else s

/-! ## Commands (R413, R423, R428, R430) -/

/-- Whether the buffer of a TEAM command passes R264 for its unit and is of class 6 or 7 (R413). -/
def State.teamBuffer (s : State) (c : Cmd) (t : Nat) : Option W16 :=
  match s.engCheckW c (dA c.desc) (s.unitLen t) with
  | some e => some e
  | none => if hClass (taHandle (dA c.desc)) < 6 then some St.BAD_PARAM else none

/-- Check 4 of R413: a member's own next stripe, in a state that takes it and with no reshape begun in slot 1 (R431); or its part
in a mirror or a rebuild. -/
def State.stripeOk (s : State) (t stripe x : Nat) : Bool :=
  if x = s.teamSelf t then
    let st := s.teamState t
    (st == 2 || st == 3 || (st == 5 && t == 1)) && !(t == 0 && s.teamLayout 1 != 0 && s.teamState 1 == 5) &&
      stripe == s.fld F.TEAM_NEXT.STRIPE t
  else decide (x < s.memberCount t) &&
    ((s.teamLayout t == 1 && (s.liveMembers t).head? == some x) || s.memberRebuilding t x)

/-- Checks 1 to 4 of R413. -/
def State.stripeCheck (s : State) (c : Cmd) : Option W16 :=
  let t := dArg c.desc
  if !s.slotActive t then some St.BAD_PARAM
  else match s.teamBuffer c t with
    | some e => some e
    | none =>
      if s.teamState t = 6 then some St.NOT_READY
      else if !s.stripeOk t (dC c.desc) (dD c.desc) then some St.BAD_PARAM else none

/-- A chain as it begins or begins again: with the attempt of its stripe, and the READY that came before (R415, R420, R421). -/
def State.chainFresh (s : State) (c : Chain) : State × Chain :=
  let c := { c with
    attempt := s.attempt c.slot c.stripe % 256, readyFrom := none, readySent := false, got := [], slices := [], lost := false,
    msgs := c.msgs.take 2 }
  let mine (e : Nat × Nat × Nat × Nat) : Bool :=
    e.1 == c.slot && e.2.1 == c.stripe && e.2.2.2 == c.attempt && !c.receiver &&
      (s.chainNext c == some e.2.2.1 || (s.rebuilds c && (s.chainNext c).isNone))
  let c := { c with readyFrom := (s.team.early.find? mine).map fun (e : Nat × Nat × Nat × Nat) => e.2.2.1 }
  ({ s with team := { s.team with early := s.team.early.filter fun (e : Nat × Nat × Nat × Nat) => !mine e } }, c)

/-- A chain begins at this member: it takes two message numbers for its slices, and READY may go out. -/
def State.beginChain (s : State) (c : Cmd) (t stripe x : Nat) (receiver : Bool) : State :=
  let (s, a) := s.newMsg
  let (s, b) := s.newMsg
  let (s, ch) := s.chainFresh { cmd := c, slot := t, stripe := stripe, x := x, receiver := receiver, msgs := [a, b] }
  let s := { s with team := { s.team with chains := s.team.chains ++ [ch] } }
  State.teamRun (s.chainTick ch)

/-- STRIPE (R413 to R419): refused by the checks in order; else it waits for its region to come into the window, and for one of
the slot's four places; else it is accepted. -/
def execStripe (i : Nat) (s : State) : Res :=
  match s.ready 3 i 1 with
  | none => .next s
  | some c =>
    let t := dArg c.desc
    let stripe := dC c.desc
    let x := dD c.desc
    if c.badOwner then .next ((s.start c).finish c St.BAD_OWNER)
    else match s.stripeCheck c with
      | some e => .next ((s.start c).finish c e)
      | none =>
        let own := x == s.teamSelf t
        let sends := own && s.isData t x
        let (s', _, m) := if sends then s.taRead (dA c.desc) (s.unitLen t) else (s, [], false)
        if m then
          let ch : Chain := { cmd := c, slot := t, stripe := stripe, x := x, receiver := false, attempt := s'.attempt t stripe % 256 }
          let s := s'.start c
          .next (State.teamRun (({ s with team := { s.team with chains := s.team.chains ++ [ch] } }).abortChain ch St.POISON none))
        else if s'.leakLow t + 1024 ≤ stripe / s'.spr t then .next s
        else if 4 ≤ (s'.team.chains.filter fun ch => ch.slot == t && !ch.receiver).length then .next s
        else
          let s := s'.start c
          let s := if own then s.setFld F.TEAM_NEXT.STRIPE (stripe + 1) t else s
          if own ∧ s.teamLayout t = 2 then .next ((s.bump F.TEAM_CNT0.STRIPES).finish c St.OK)
          else .next (s.beginChain c t stripe x false)

/-- Whether a stripe stands in the lost stripe list for a member (R411, R430). -/
def State.stripeListed (s : State) (t stripe l : Nat) : Bool :=
  (List.range 256).any fun k =>
    let w := s.tw t (0x100 + k)
    w.testBit 63 && w % 2 ^ 32 == stripe && (w / 2 ^ 32 % 2 ^ 18).testBit l

/-- REBUILD_READ (R428 to R430): a stripe written after the loss is the null unit; a lost stripe ends at once; else a chain. -/
def execRebuildRead (i : Nat) (s : State) : Res :=
  runCmd 3 i 2 s fun c s =>
    let t := dArg c.desc
    let stripe := dC c.desc
    let l := dD c.desc
    if !s.slotActive t ∨ s.memberCount t ≤ l then s.finish c St.BAD_PARAM
    else match s.teamBuffer c t with
      | some e => s.finish c e
      | none =>
        if s.memberLost t l ∧ s.lossStripe t l ≤ stripe then
          let s := s.taWrite (dA c.desc) (nullBytes 0 (s.unitLen t)) false
          let s := s.padUnit { cmd := c, slot := t, stripe := stripe, x := l, receiver := true }
          (s.bump F.TEAM_CNT1.REBUILT).finish c St.OK
        else if s.stripeListed t stripe l then
          ((s.raise F.TEAM_STAT.STRIPE_LOST_SEEN).bump F.TEAM_CNT0.LOSTS).finish c St.STRIPE_LOST
        else s.beginChain c t stripe l true

/-- LEAK_COMMIT (R423): its regions checked, it waits for its seal. -/
def execLeakCommit (i : Nat) (s : State) : Res :=
  runCmd 3 i 3 s fun c s =>
    let t := dArg c.desc
    let first := dC c.desc
    let count := dD c.desc
    let low := s.leakLow t
    if !s.slotActive t ∨ count = 0 ∨ first < low ∨ low + 1024 < first + count then s.finish c St.BAD_PARAM
    else
      let j : LeakJob := { cmd := c, slot := t, first := first, count := count, sealSeq := c.txSeq }
      { s with team := { s.team with leaks := s.team.leaks ++ [j] } }

/-- One LEAK_COMMIT whose seal has been decided (R423): LEAK goes to the leader, or the leader records the regions itself; a seal
that failed ends the command with its status. -/
def State.leakSend (s : State) (j : LeakJob) : State :=
  let upd (x : LeakJob) : LeakJob := if x.cmd.seq = j.cmd.seq then { x with sent := true } else x
  if j.sent then s
  else if s.fmt.chain.any fun q => q.seq == j.sealSeq then
    let s := { s with team := { s.team with leaks := s.team.leaks.map upd } }
    let (s, m) := s.plainMsg j.slot (s.teamLeader j.slot) 0x16 0 0 (leBytes 4 j.first ++ leBytes 4 j.count)
    State.teamRun (s, [m])
  else match s.fmt.sealFailed.find? fun (e : Nat × W16) => j.cmd.txn != 0 && e.1 == j.cmd.txn with
    | some e =>
      ({ s with team := { s.team with leaks := s.team.leaks.filter fun (x : LeakJob) => x.cmd.seq != j.cmd.seq } }).finish j.cmd e.2
    | none => s

/-- LEAK_SEND (R423): FMT reports how the seal of the `i`-th LEAK_COMMIT in progress ended. -/
def execLeakSend (i : Nat) (s : State) : Res :=
  whileClocked s <| match s.team.leaks[i]? with
  | some j => .next (s.leakSend j)
  | none => .next s

/-! ## Slots, RUN and record changes (R412, R421, R424, R433) -/

/-- Whether the engine is stopped for its RWS fields (R433). -/
def State.teamStopped (s : State) : Bool :=
  !s.flag F.TEAM_CTL.RUN && (s.cmds 3).isEmpty && s.team.chains.isEmpty && s.team.leaks.isEmpty

/-- STATE, LEADER and SECOND of a slot's register, from its record. -/
def State.slotView (s : State) (t : Nat) : State :=
  let act := s.slotActive t
  let s := s.setFld F.TEAM_SLOT.STATE (s.teamState t) t
  let s := s.setFlag F.TEAM_SLOT.LEADER (act && s.teamLeader t == s.devId) t
  s.setFlag F.TEAM_SLOT.SECOND (act && s.teamSecond t == s.devId) t

/-- The live map loaded from the record; the window of a member that is neither leader nor second is zero (R433). -/
def State.loadMap (s : State) (t : Nat) : State :=
  let s := s.setFld F.TEAM_LOW.LOW (s.tw t 4 % 2 ^ 32) t
  s.setLeakMap t (if s.flag F.TEAM_SLOT.LEADER t || s.flag F.TEAM_SLOT.SECOND t then s.recordMap t else 0)

/-- What TEAM notes of a record it has acted on. -/
def State.noteRecord (s : State) (t : Nat) : State :=
  { s with team := { s.team with
      lostMask := s.team.lostMask.set (fun _ => 0) t (s.lostMask t)
      second := s.team.second.set (fun _ => 0) t (s.teamSecond t)
      ident := s.team.ident.set (fun _ => 0) t (s.tw t 0 % 2 ^ 48) } }

/-- The reports of an earlier team or layout in a slot count no more, nor do its changes (R422). -/
def State.forgetReports (s : State) (t : Nat) : State :=
  { s with team := { s.team with
      reported := s.team.reported.clear (65536 * t) 65536
      changes := s.team.changes.filter fun x => x.slot != t } }

/-- ACT of a slot set (R413, R433): the slot loads LOW, its window and the next expected stripe from its record. -/
def State.slotOn (s : State) (t : Nat) : State :=
  if s.flag F.TEAM_SLOT.ACT t then s
  else
    let s := (s.setFlag F.TEAM_SLOT.ACT true t).slotView t
    (((s.setFld F.TEAM_NEXT.STRIPE (s.tw t 3 / 2 ^ 32) t).loadMap t).forgetReports t).noteRecord t

/-- ACT of a slot cleared (R433): this formatter acts neither as its leader nor as its second. -/
def State.slotOff (s : State) (t : Nat) : State := ((s.setFlag F.TEAM_SLOT.ACT false t).slotView t).setLeakMap t 0

/-- A write of 1 to RUN (R433). -/
def State.teamRunOn (s : State) : State :=
  if s.imageOk then s.setFlag F.TEAM_CTL.RUN true else s.raise F.TEAM_STAT.TXR_BAD

/-- A write of 0 to RUN (R433): every chain aborts with NOT_READY, and queued commands end so. -/
def State.teamRunOff (s : State) : State :=
  let s := s.each s.team.chains fun s c =>
    if s.team.chains.any fun x => x.cmd.seq == c.cmd.seq then State.teamRun (s.abortChain c St.NOT_READY none) else s
  let s := s.each (s.cmds 3) fun s c => (s.start c).finish c St.NOT_READY
  let s := s.each s.team.leaks fun s j => s.finish j.cmd St.NOT_READY
  ({ s with team := { s.team with leaks := [] } }).setFlag F.TEAM_CTL.RUN false

/-- Chains restart without newly lost members, from the LOSS_STRIPE of each, with the attempt advanced (R421). -/
def State.restartChains (s : State) (t : Nat) (lost : List Nat) : State :=
  let from1 := lost.foldl (fun n m => min n (s.lossStripe t m)) (2 ^ 32)
  let hit := s.team.chains.filter fun c => c.slot == t && decide (from1 ≤ c.stripe)
  let s := s.each hit fun s c =>
    let (s, c') := s.chainFresh c
    s.updChain c fun _ => c'
  s.each hit fun s c => State.teamRun (s.chainTick (s.chainNow c))

/-- The leader sends a new second its full map; changes that waited for the old one wait for it, and are told at once where there is no
second any more (R424). -/
def State.copyToSecond (s : State) (t : Nat) : State :=
  let old := s.team.changes.filter fun x => x.slot == t
  let s := { s with team := { s.team with changes := s.team.changes.filter fun x => x.slot != t } }
  State.teamRun (s.announce t (old.flatMap fun x => x.regions))

/-- TEAM acts on a committed change of a slot's record (R412, R421, R424). -/
def State.recordChange (s : State) (t : Nat) : State :=
  let held := s.flag F.TEAM_SLOT.LEADER t || s.flag F.TEAM_SLOT.SECOND t
  let oldMask := s.team.lostMask.get (fun _ => 0) t
  let oldSecond := s.team.second.get (fun _ => 0) t
  let s := s.slotView t
  let leader := s.flag F.TEAM_SLOT.LEADER t
  let holds := leader || s.flag F.TEAM_SLOT.SECOND t
  let new := s.team.ident.get (fun _ => 0) t != s.tw t 0 % 2 ^ 48
  let s := if new then s.forgetReports t else s
  let s := if held && holds && !new then s else s.loadMap t
  let lost := (List.range (s.memberCount t)).filter fun m => s.memberLost t m && !oldMask.testBit m
  let s := (s.noteRecord t).restartChains t lost
  let s := if leader && s.teamSecond t != oldSecond && (s.hasSecond t || s.team.changes.any fun x => x.slot == t) then s.copyToSecond t else s
  if leader && s.lostMask t != oldMask then
    let (s, clean) := s.applyLeaks t []
    if clean.isEmpty then s else State.teamRun (s.announce t clean)
  else s

/-- TEAM_RECORD_CHANGE (R412). -/
def execTeamRecordChange (slot : Fin 2) (s : State) : Res :=
  whileClocked s <| .next (if s.flag F.TEAM_SLOT.ACT slot then s.recordChange slot else s.slotView slot)

end Sys2Proof.Machine
end

