-- ==== Sys2Proof/Machine/Wide.lean ====
section
/-!
DEFINITION. Wide registers, carry-less multiplication and AES assist (R294, R295). A wide register field above 15 is ILLEGAL
(R283).
-/
namespace Sys2Proof.Machine

/-- The carry-less product over the low `k` bits of the second factor (R294). -/
def clmulAux (a : W128) (b : W64) : Nat → W128
  | 0 => 0
  | k + 1 => (if b.getLsbD k then a <<< k else 0) ^^^ clmulAux a b k

/-- The carry-less product of two 64-bit polynomials, 127 bits (R294). -/
def clmul (a b : W64) : W128 := clmulAux (a.zeroExtend 128) b 64

/-- The low half of a wide value. -/
def wLow (v : W128) : W64 := v.truncate 64
/-- The high half of a wide value. -/
def wHigh (v : W128) : W64 := (v >>> 64).truncate 64

/-- A wide value shifted left by one modulo x^128 + x^7 + x^2 + x + 1 (XTSMUL, and multiplication by x in GHRED, R295). -/
def timesX (v : W128) : W128 := if v.getLsbD 127 then (v <<< 1) ^^^ 0x87 else v <<< 1

/-- `v` multiplied by `x ^ k` modulo G (R295). -/
def timesXn (v : W128) : Nat → W128
  | 0 => v
  | k + 1 => timesXn (timesX v) k

/-- (a · x^128 + b) mod G (R295). -/
def ghred (a b : W128) : W128 := timesXn a 128 ^^^ b

/-- The 16 bytes of a wide value in storage order. -/
def wBytes (v : W128) : List Byte := leBytes 16 v.toNat
/-- The wide value of 16 bytes in storage order. -/
def wOf (l : List Byte) : W128 := BitVec.ofNat 128 (leNat l)

/-- The order of the 16 bytes reversed (R295). -/
def bswapW (v : W128) : W128 := wOf (wBytes v).reverse

/-- A byte with its bits reversed. -/
def revByte (b : Byte) : Byte := (List.range 8).foldl (fun x i => if b.getLsbD i then x ||| (1 <<< (7 - i)) else x) 0

/-- Bits reversed within each byte (R295). -/
def brevB (v : W128) : W128 := wOf ((wBytes v).map revByte)

/-- Bytes 12 to 15, as a big-endian integer, plus 1 modulo 2^32 (R295). -/
def inc32 (v : W128) : W128 :=
  let b := wBytes v
  let k := leNat (b.drop 12).reverse
  wOf (b.take 12 ++ (leBytes 4 (k + 1)).reverse)

/-- A wide instruction of two wide operands. -/
def wide2 (n : CoreId) (rd ra rb : Rf) (f : W128 → W128 → W128) (s : State) : Res :=
  laruf n s fun c =>
    if 15 < rd.toNat ∨ 15 < ra.toNat ∨ 15 < rb.toNat then illegal
    else coreDone n s (c.setW rd (f (c.wv ra) (c.wv rb)) (c.wm ra || c.wm rb))

/-- A wide instruction of one wide operand; rb is unused. -/
def wide1 (n : CoreId) (rd ra rb : Rf) (f : W128 → W128) (s : State) : Res :=
  laruf n s fun c =>
    if 15 < rd.toNat ∨ 15 < ra.toNat ∨ rb ≠ 0 then illegal else coreDone n s (c.setW rd (f (c.wv ra)) (c.wm ra))

/-- A half of a wide register into a general one; rb is unused. -/
def wideOut (n : CoreId) (rd ra rb : Rf) (f : W128 → W64) (s : State) : Res :=
  laruf n s fun c =>
    if 15 < ra.toNat ∨ rb ≠ 0 then illegal else coreDone n s (c.setG rd (f (c.wv ra)) (c.wm ra))

/-- WXOR (R294): wd = wa XOR wb. -/
def execWxor (n : CoreId) (rd ra rb : Rf) (s : State) : Res := wide2 n rd ra rb (fun a b => a ^^^ b) s

/-- WAND (R294): wd = wa AND wb. -/
def execWand (n : CoreId) (rd ra rb : Rf) (s : State) : Res := wide2 n rd ra rb (fun a b => a &&& b) s

/-- WOR (R294): wd = wa OR wb. -/
def execWor (n : CoreId) (rd ra rb : Rf) (s : State) : Res := wide2 n rd ra rb (fun a b => a ||| b) s

/-- CLMUL.LL (R294): wd = wa[63:0] × wb[63:0], carry-less. -/
def execClmulLl (n : CoreId) (rd ra rb : Rf) (s : State) : Res := wide2 n rd ra rb (fun a b => clmul (wLow a) (wLow b)) s

/-- CLMUL.HL (R294): wd = wa[127:64] × wb[63:0], carry-less. -/
def execClmulHl (n : CoreId) (rd ra rb : Rf) (s : State) : Res := wide2 n rd ra rb (fun a b => clmul (wHigh a) (wLow b)) s

/-- CLMUL.LH (R294): wd = wa[63:0] × wb[127:64], carry-less. -/
def execClmulLh (n : CoreId) (rd ra rb : Rf) (s : State) : Res := wide2 n rd ra rb (fun a b => clmul (wLow a) (wHigh b)) s

/-- CLMUL.HH (R294): wd = wa[127:64] × wb[127:64], carry-less. -/
def execClmulHh (n : CoreId) (rd ra rb : Rf) (s : State) : Res := wide2 n rd ra rb (fun a b => clmul (wHigh a) (wHigh b)) s

/-- GHRED (R295): wd = (wa · x^128 + wb) mod G. -/
def execGhred (n : CoreId) (rd ra rb : Rf) (s : State) : Res := wide2 n rd ra rb (ghred) s

/-- WMOV (R294): wd = wa. -/
def execWmov (n : CoreId) (rd ra rb : Rf) (s : State) : Res := wide1 n rd ra rb (fun a => a) s

/-- XTSMUL (R295): wd = wa shifted left by one bit; if wa[127] was 1, bits [7:0] are then XORed with 0x87. -/
def execXtsmul (n : CoreId) (rd ra rb : Rf) (s : State) : Res := wide1 n rd ra rb (timesX) s

/-- INC32 (R295): wd = wa with bytes 12 to 15, big-endian, advanced by 1. -/
def execInc32 (n : CoreId) (rd ra rb : Rf) (s : State) : Res := wide1 n rd ra rb (inc32) s

/-- BREVB (R295): wd = wa with the bits of each byte reversed. -/
def execBrevb (n : CoreId) (rd ra rb : Rf) (s : State) : Res := wide1 n rd ra rb (brevB) s

/-- BSWAPW (R295): wd = wa with its 16 bytes reversed. -/
def execBswapw (n : CoreId) (rd ra rb : Rf) (s : State) : Res := wide1 n rd ra rb (bswapW) s

/-- WFROM (R294): wd[63:0] = ga, wd[127:64] = gb. -/
def execWfrom (n : CoreId) (rd ra rb : Rf) (s : State) : Res :=
  laruf n s fun c =>
    if 15 < rd.toNat then illegal else coreDone n s (c.setW rd (c.gv rb ++ c.gv ra) (c.gm ra || c.gm rb))

/-- WLO (R294): gd = wa[63:0]. -/
def execWlo (n : CoreId) (rd ra rb : Rf) (s : State) : Res := wideOut n rd ra rb wLow s

/-- WHI (R294): gd = wa[127:64]. -/
def execWhi (n : CoreId) (rd ra rb : Rf) (s : State) : Res := wideOut n rd ra rb wHigh s

/-- TAGEQ (R295): gd = 1 if wa = wb, else 0; Z = gd; N, C and V cleared. -/
def execTageq (n : CoreId) (rd ra rb : Rf) (s : State) : Res :=
  laruf n s fun c =>
    if 15 < ra.toNat ∨ 15 < rb.toNat then illegal
    else
      let e := c.wv ra == c.wv rb
      let m := c.wm ra || c.wm rb
      coreDone n s ((c.setG rd (if e then 1 else 0) m).setEq e m)

end Sys2Proof.Machine
end

