-- ==== Sys2Proof/Machine/Units.lean ====
section
/-!
DEFINITION. The unit stream of the standard program set (R58 to R64, R70, R72 to R77, R90, R228, R229, R337): record and segment
units, their headers, the GCM message of a segment, commit groups with their data yealms, index sets and seal records, and the
reading back of units.
-/
namespace Sys2Proof.Machine

/-! ## GCM (R77, R295, R354) -/

/-- The product of two elements of the field of GHASH, bit k standing for x^k. -/
def ghMul (a b : W128) : W128 := (List.range 128).foldl (fun r k => if b.getLsbD k then r ^^^ timesXn a k else r) 0

/-- Bytes filled up to whole blocks with zeros. -/
def toBlocks (l : List Byte) : List Byte := l ++ List.replicate ((16 - l.length % 16) % 16) 0

/-- GHASH of whole blocks under H, by products between bit reversals of each byte (R295).
PRESUMED: log entry 25. -/
def ghash (h : List Byte) (l : List Byte) : List Byte :=
  wBytes (brevB ((pieces 16 (l.length / 16) l).foldl (fun y b => ghMul (y ^^^ brevB (wOf b)) (brevB (wOf h))) 0))

/-- The counter block k of a 12-byte IV. -/
def ctrBlock (iv : List Byte) (k : Nat) : List Byte := iv ++ (leBytes 4 k).reverse

/-- The keystream of a GCM message over `n` bytes (R354). -/
def gcmStream (key iv : List Byte) (n : Nat) : List Byte :=
  ((List.range ((n + 15) / 16)).flatMap fun i => Aes.encrypt key (ctrBlock iv (i + 2))).take n

/-- The tag of a GCM message from its additional authenticated data and its ciphertext (R354). -/
def gcmTag (key iv aad ct : List Byte) : List Byte :=
  let h := Aes.encrypt key (List.replicate 16 0)
  let lens := (leBytes 8 (8 * aad.length)).reverse ++ (leBytes 8 (8 * ct.length)).reverse
  xorBytes (ghash h (toBlocks aad ++ toBlocks ct ++ lens)) (Aes.encrypt key (ctrBlock iv 1))

/-- The key mapped to a tenant key identifier: that of the lowest slot that holds it and may be used so.
DESIGN CHOICE: log entry 91. -/
def State.keyFor (s : State) (tkid : W64) (dec : Bool) : Option KeySlot :=
  ((List.range 64).map s.key).find? fun k => k.valid && k.tkid == tkid && (if dec then k.dec else k.enc)

/-! ## Unit headers (R72, R73, R75) -/

/-- A header closed with its CRC-32C. -/
def withCrc (b : List Byte) : List Byte := b ++ leBytes 4 (crc32c b).toNat

/-- A record header (R73). -/
def recordHeader (flags : Nat) (stream : W32) (seq : Nat) (data : List Byte) : List Byte :=
  withCrc (leBytes 2 0x7A01 ++ leBytes 2 flags ++ leBytes 4 data.length ++ leBytes 4 stream.toNat ++ leBytes 4 0 ++
    leBytes 8 seq ++ leBytes 4 (crc32c data).toNat)

/-- The IV of a stream's open segment (R75, R354). -/
def Stream.iv (x : Stream) : List Byte :=
  if x.tkid = 0 then leBytes 12 0 else leBytes 8 x.ivBase.toNat ++ leBytes 4 x.segSeq

/-- Bytes 0 to 59 of the access point header of a stream's open segment (R75), with a tag. -/
def Stream.head (x : Stream) (id : Nat) (tag : List Byte) : List Byte :=
  leBytes 2 0x7A02 ++ leBytes 2 (x.cls.toNat % 4 + 4 * x.runStart.toNat) ++ leBytes 4 id ++ leBytes 4 x.body.length ++
    leBytes 4 x.orig ++ leBytes 4 (if x.began.isEmpty then 0xFFFFFFFF else x.firstAt) ++ x.iv ++ tag ++
    leBytes 8 x.tkid.toNat ++ leBytes 4 x.segSeq

/-- The additional authenticated data of a segment (R77). -/
def segAad (head : List Byte) : List Byte := bytesAt head 0 20 ++ bytesAt head 48 12

/-- The segment unit of a stream's open segment (R75 to R77): header and body, encrypted where it has a tenant key. -/
def Stream.unit (x : Stream) (id : Nat) (key : Option KeySlot) : List Byte × List Byte :=
  match key with
  | none => (withCrc (x.head id (leBytes 16 0)), x.body)
  | some k =>
    let ct := xorBytes x.body (gcmStream k.bytes x.iv x.body.length)
    let tag := gcmTag k.bytes x.iv (segAad (x.head id (leBytes 16 0))) ct
    (withCrc (x.head id tag), ct)

/-! ## Data yealms of a commit group (R49, R57, R58, R61) -/

/-- The group opens its next data yealm, of N channels and a dark group; with ridge protection the parity yealms follow number
16r + 13 (R57). -/
def UnitGroup.addYealm (g : UnitGroup) (ridge : Bool) (n : Nat) (dark : Option Nat) : UnitGroup :=
  let y := g.next
  { g with
    layout := g.layout ++ [(y, 229376 * n)]
    next := if ridge && y % 16 == 13 then y + 3 else y + 1
    ridgeClosed := g.ridgeClosed || y % 16 == (if ridge then 13 else 15)
    dark := dark }

/-- Data bytes of the group's yealms. -/
def UnitGroup.size (g : UnitGroup) : Nat := g.layout.foldl (fun n e => n + e.2) 0

/-- Yealms opened until the unit stream may have `len` bytes. -/
def UnitGroup.grow (ridge : Bool) (n : Nat) (dark : Option Nat) (len : Nat) : Nat → UnitGroup → UnitGroup
  | 0, g => g
  | k + 1, g => if len ≤ g.size then g else UnitGroup.grow ridge n dark len k (g.addYealm ridge n dark)

/-- Pad of `n` bytes: a pad unit, or one zero byte (R72, R74, R408). -/
def padBytes (n : Nat) : List Byte := if n < 2 then List.replicate n 0 else leBytes 2 0x7A00 ++ List.replicate (n - 2) 0

/-- Every yealm of the group padded to its end, each by a pad of its own (R74, R408). -/
def UnitGroup.pad (g : UnitGroup) : UnitGroup :=
  let step (a : Nat × List Byte) (e : Nat × Nat) : Nat × List Byte :=
    (a.1 + e.2, if a.2.length < a.1 + e.2 then a.2 ++ padBytes (a.1 + e.2 - a.2.length) else a.2)
  { g with stream := (g.layout.foldl step (0, g.stream)).2 }

/-- The yealm and data byte offset of a byte of the unit stream (R72). -/
def unitPlace : List (Nat × Nat) → Nat → Nat × Nat
  | [], p => (0, p)
  | (y, n) :: l, p => if p < n then (y, p) else unitPlace l (p - n)

/-- An early close of the ridge in progress (R58). -/
def UnitGroup.closeRidge (g : UnitGroup) : UnitGroup :=
  if g.next % 16 = 0 then g
  else { g with skip := if g.next % 16 ≤ 13 then g.next else 0, next := 16 * (g.next / 16 + 1), ridgeClosed := true }

/-- Null units to the end of the region (R408, R410). -/
def UnitGroup.fillRegion (ridge : Bool) (n : Nat) (dark : Option Nat) : Nat → UnitGroup → UnitGroup
  | 0, g => g
  | k + 1, g => if g.next % 16 = 0 && !g.layout.isEmpty then g else UnitGroup.fillRegion ridge n dark k (g.addYealm ridge n dark)

/-- The state with the open commit group replaced. -/
def State.setGroup (s : State) (g : UnitGroup) : State := { s with hst := { s.hst with group := g } }

/-- The team slot whose units this formatter's yealms are (R406, R409, R432): that of an active record that is not retired, slot 0
first. -/
def State.unitTeam (s : State) : Option Nat := [0, 1].find? fun t => s.slotActive t && s.teamState t != 7

/-- The bytes of a yealm that units may use where a team's N is the lower (R407). -/
def State.unitLimit (s : State) : Option Nat :=
  s.unitTeam.bind fun t => if s.teamN t < s.activeList.length then some (229376 * s.teamN t) else none

/-- The open group with room for a unit of `u` bytes, which lies in one yealm where R407 asks for a pad unit in each. -/
def State.groupRoom (s : State) (g : UnitGroup) (u : Nat) : UnitGroup :=
  let g := match s.unitLimit, g.layout.getLast? with
    | some m, some e => if m < g.stream.length - (g.size - e.2) + u then g.pad else g
    | _, _ => g
  g.grow s.fmt.ridgeProtection s.activeList.length s.darkGroup (g.stream.length + u) (u / 3670016 + 2)

/-! ## Closing a commit group (R58, R61, R63, R64, R70, R337, R410, R426) -/

/-- The team block of a seal whose group ends with yealm `last` (R426).
DEDUCED: log entry 92. -/
def State.teamBlock (s : State) (t last : Nat) : List Byte :=
  let self := s.teamSelf t
  let role := s.tw t (0x10 + self) / 2 ^ 16 % 4
  let bits := (s.memberDev t self == s.teamLeader t).toNat + 2 * (s.memberDev t self == s.teamSecond t).toNat +
    4 * (s.teamRidge t).toNat
  let base := s.tw t 3 % 2 ^ 32
  let after := (last / 16 - base) * s.spr t + min (last % 16 + 1) (s.spr t)
  leBytes 4 (s.teamId t) ++ leBytes 2 (s.teamGen t) ++ leBytes 1 (s.teamLayout t) ++ leBytes 1 (s.teamK t) ++ leBytes 1 self ++
    leBytes 1 role ++ leBytes 1 (s.teamN t) ++ leBytes 1 bits ++ leBytes 4 base ++ leBytes 8 (s.tw t 2 + s.hst.closed.length + 1) ++ leBytes 4 after ++
    leBytes 4 (s.tw t 4 % 2 ^ 32) ++ leBytes 2 (s.teamLeader t) ++ leBytes 2 (s.teamSecond t) ++ leBytes 3 (s.lostMask t) ++
    leBytes 25 0 ++ (List.range 16).flatMap fun k => leBytes 8 (s.tw t (0x40 + k))

/-- One entry of an index delta (R64). -/
def Delta.bytes (d : Delta) : List Byte :=
  leBytes 4 d.stream.toNat ++ leBytes 8 d.first ++ leBytes 4 d.count ++ leBytes 4 d.yealm ++ leBytes 4 d.off

/-- One entry of an index set (R70). -/
def IndexEntry.bytes (e : IndexEntry) : List Byte :=
  leBytes 4 e.stream.toNat ++ leBytes 4 e.flags ++ leBytes 8 e.first ++ leBytes 8 e.last ++ leBytes 4 e.yealm ++ leBytes 4 e.off

/-- Entries that one index yealm takes (R70). -/
def indexRoom : Nat := 114686

/-- Data bytes of a quad-written yealm (R68). -/
def quadBytes : Nat := 16 * 229376

/-- The data of an index yealm (R70): header, entries, and zero bytes to its end. -/
def indexPart (k parts seq last : Nat) (l : List IndexEntry) : List Byte :=
  let head := leBytes 4 0x58444E49 ++ leBytes 2 1 ++ leBytes 2 k ++ leBytes 2 parts ++ leBytes 2 0 ++ leBytes 4 l.length ++
    leBytes 8 seq ++ leBytes 4 last ++ leBytes 32 0
  let body := l.flatMap IndexEntry.bytes
  bytesAt (head ++ leBytes 4 (crc32c (head ++ body)).toNat ++ body) 0 quadBytes

/-- An index set over entries, from an index yealm number on (R70); none where it would take more than 64 yealms (R61). Its parts are
numbered from 0, which the spec leaves open.
DESIGN CHOICE: log entry 93. -/
def indexSet (seq last first : Nat) (l : List IndexEntry) : List (Nat × List Byte) :=
  let parts := (l.length + indexRoom - 1) / indexRoom
  if 64 < parts then []
  else (pieces indexRoom parts l).zipIdx.map fun e => (first + e.2, indexPart e.2 parts seq last e.1)

/-- The seal record of a group as the program set fills it (R63, R64, R319): offsets 0 to 43, 50 and 64 to 927. -/
def State.groupRecord (s : State) (g : UnitGroup) (seq : Nat) (parts : List (Nat × List Byte)) : List Byte :=
  let last := g.next - 1
  let d := (g.delta.take 28).flatMap Delta.bytes
  let team := s.unitTeam
  let flags := team.isSome.toNat + 2 * (decide (28 < g.delta.length)).toNat + 4 * g.ridgeClosed.toNat +
    8 * (!parts.isEmpty).toNat + 16 * g.resumed.toNat
  let prev := match s.fmt.chain.getLast? with
    | some q => q.crc.toNat
    | none => 0
  leBytes 4 0x4C414553 ++ leBytes 2 1 ++ leBytes 2 flags ++ leBytes 8 seq ++ leBytes 4 g.first ++ leBytes 4 last ++
    leBytes 4 g.count ++ leBytes 4 g.cum.toNat ++ leBytes 4 prev ++ leBytes 4 ((parts.map fun e => e.1).headD 0) ++
    leBytes 2 parts.length ++ leBytes 2 (min 28 g.delta.length) ++ leBytes 6 0 ++ leBytes 4 g.skip ++ leBytes 10 0 ++
    bytesAt d 0 672 ++ (match team with
      | some t => s.teamBlock t last
      | none => leBytes 192 0) ++ leBytes 96 0

/-- The group's yealm numbers as they stand when it closes: to the end of a region in a team (R410); with the ridge in progress
closed early where asked and ridge protection is on (R58, R60); at least one yealm.
DESIGN CHOICE: log entry 93. -/
def State.groupEnd (s : State) (early : Bool) : UnitGroup :=
  let ridge := s.fmt.ridgeProtection
  let g := s.hst.group
  let add := g.addYealm ridge s.activeList.length s.darkGroup
  if s.unitTeam.isSome then g.fillRegion ridge s.activeList.length s.darkGroup 16
  else if early && ridge then (if g.layout.isEmpty && g.next % 16 == 0 then add else g).closeRidge
  else if g.layout.isEmpty then add else g

/-- The stream table as it is after the open group (R328): of each stream its ID, the sequence of its next record and segment, and its
latest run-start segment's yealm and offset. -/
def State.streamTable (s : State) (index : List IndexEntry) : List (List Nat) :=
  (s.hst.streams.take 256).map fun (e : Nat × Stream) =>
    let run := (index.filter fun i => i.stream.toNat == e.1 && i.flags.testBit 0 && !i.flags.testBit 2).getLast?
    [e.1, e.2.began.headD e.2.nextSeq, e.2.segSeq, (run.map IndexEntry.yealm).getD 0, (run.map IndexEntry.off).getD 0]

/-- Whether a WRITE_RECORD's record has bytes in a segment that is still open, and so belongs to a later group (R228). -/
def State.unplaced (s : State) (w : Waiting) : Bool :=
  w.record.any fun r => (s.hst.streams.get (fun _ => {}) r.1).touched.contains r.2

/-- The open commit group is closed (R61, R74, R337), with the ridge closed early and an index set over every unit so far where the
write session ends; a new group follows, to which the records belong that are not wholly placed.
DESIGN CHOICE: log entry 93. -/
def State.closeGroup (s : State) (early session : Bool) : State :=
  let g := (s.groupEnd early).pad
  let seq := s.openGroup
  let all := s.hst.index ++ g.index
  let last := match g.layout.getLast? with
    | some e => e.1
    | none => (all.getLast?.map IndexEntry.yealm).getD 0
  let parts := if session then indexSet seq last s.hst.quadNext all else []
  let next (w : Waiting) : Waiting := if w.seq = seq ∧ !w.due ∧ s.unplaced w then { w with seq := seq + 1 } else w
  let c : ClosedGroup :=
    { seq := seq, record := s.groupRecord g seq parts, stream := g.stream, layout := g.layout, parts := parts, table := s.streamTable all }
  { s with hst := { s.hst with
      waiting := s.hst.waiting.map next
      group := { first := g.next, next := g.next, cumBefore := g.cum, cum := g.cum, dark := g.dark }
      closed := s.hst.closed ++ [c]
      index := all
      quadNext := s.hst.quadNext + parts.length } }

/-- The dark selector is to change (R58, R176): a ridge in progress is closed early, and its group with it. -/
def State.closeForDark (s : State) : State :=
  if s.fmt.ridgeProtection && s.hst.group.next % 16 != 0 then s.closeGroup true false else s

/-! ## Placing units (R58, R61, R64, R70, R72, R90) -/

/-- The number after a group's last, were the ridge in progress completed in it: what closing it early (R58) or a team's fill (R410)
may still add. -/
def State.groupTop (s : State) (g : UnitGroup) : Nat :=
  if s.fmt.ridgeProtection || s.unitTeam.isSome then 16 * ((g.next + 15) / 16) else g.next

/-- Whether a unit must wait for the next group: it needs a further yealm, and the group might then close with a number too many
(R61). -/
def State.groupFull (s : State) (u : Nat) : Bool :=
  let g := s.hst.group
  let h := s.groupRoom g u
  h.layout != g.layout && decide (4096 < s.groupTop h - h.first)

/-- A unit joins the unit stream of the open group, the group before it closed where it has no place there: the yealm and offset of
its header, and the cumulative CRC (R90). -/
def State.placeUnit (s : State) (head body : List Byte) : State × Nat × Nat :=
  let u := head.length + body.length
  let s := if s.hst.group.dark = s.darkGroup then s else s.closeForDark
  let s := if s.groupFull u then s.closeGroup false false else s
  let g := s.groupRoom s.hst.group u
  (s.setGroup { g with stream := g.stream ++ head ++ body, cum := crc32cFrom g.cum head }, unitPlace g.layout g.stream.length)

/-- Records that begin in a unit are counted in the group and its index delta (R63, R64). -/
def UnitGroup.countRecords (g : UnitGroup) (stream : W32) (seqs : List Nat) (at' : Nat × Nat) : UnitGroup :=
  match seqs with
  | [] => g
  | q :: _ =>
    let delta := if g.delta.any fun d => d.stream == stream then
        g.delta.map fun d => if d.stream = stream then { d with count := d.count + seqs.length } else d
      else g.delta ++ [⟨stream, q, seqs.length, at'.1, at'.2⟩]
    { g with count := g.count + seqs.length, delta := delta }

/-- What placing a unit leaves in the index, the delta and the records that can be located (R64, R70, R384). -/
def State.indexUnit (s : State) (stream : W32) (flags first last : Nat) (seqs : List Nat) (at' : Nat × Nat) : State :=
  let g := s.hst.group.countRecords stream seqs at'
  { s with hst := { s.hst with
      group := { g with index := g.index ++ [⟨stream, flags, first, last, at'.1, at'.2⟩] }
      records := s.hst.records.map fun (r : RecordInfo) =>
        if r.stream = stream ∧ seqs.contains r.seq.toNat then { r with yealm := some at'.1 } else r } }

/-- A record unit placed (R73). -/
def State.placeRecord (s : State) (stream : W32) (seq : Nat) (data : List Byte) : State :=
  let marker := data.isEmpty
  let (s, at') := s.placeUnit (recordHeader (4 * marker.toNat) stream seq data) data
  s.indexUnit stream (2 * marker.toNat) seq seq [seq] at'

/-- The state with a stream of the program set replaced, by its ID. -/
def State.putStream (s : State) (id : Nat) (x : Stream) : State :=
  { s with hst := { s.hst with streams := s.hst.streams.set (fun _ => {}) id x } }

/-- A stream of the program set by its ID. -/
def State.streamOf (s : State) (id : Nat) : Stream := s.hst.streams.get (fun _ => {}) id

/-- The open segment of a stream is finished and placed (R75, R76); without a key for its tenant nothing is placed and the status
of the ENCRYPT is answered. -/
def State.endSegment (s : State) (id : Nat) : State × Option W16 :=
  let x := s.streamOf id
  let key := if x.tkid = 0 then none else s.keyFor x.tkid false
  if x.tkid ≠ 0 ∧ key.isNone then (s, some St.KEY_EMPTY)
  else
    let (h, b) := x.unit id key
    let (s, at') := s.placeUnit h b
    let point := x.cls.toNat % 4 == 2
    let flags := (x.cls.toNat % 4 != 1 || x.runStart).toNat + 4 * point.toNat
    let s := s.indexUnit (BitVec.ofNat 32 id) flags (x.began.headD x.lastRec) x.lastRec x.began at'
    (s.putStream id { x with segSeq := x.segSeq + 1, body := [], orig := 0, firstAt := 0, began := [], touched := [], runStart := false },
      none)

/-! ## Forming segments (R76, R216, R228, R229) -/

/-- A segment begins with its first byte: a run starts where one is due, and history is empty at a run start and in a point
stream. Bit 2 of the header (R75), which the spec defines for the segments of a run stream (R229), stays 0 in the others, a point
stream's among them.
DESIGN CHOICE: log entry 93. -/
def Stream.openSeg (x : Stream) : Stream :=
  if x.orig ≠ 0 then x
  else
    let run := x.cls.toNat % 4 == 1 && (x.runNext || x.runStart)
    { x with runStart := run, runNext := x.runNext && !run,
             ctx := if run || x.cls.toNat % 4 == 2 then Ctx.fresh false 0 else x.ctx }

/-- A record of the stream begins at this point of its open segment. -/
def Stream.beginRecord (x : Stream) (seq : Nat) : Stream :=
  { x with firstAt := if x.began.isEmpty then x.orig else x.firstAt, began := x.began ++ [seq], lastRec := seq }

/-- The coding of a record's content: the state, the bodies that lanes still make, whether every bundle was stored raw, and the
status that ended it. -/
structure CodeRun where
  s : State
  bodies : List (List Byte)
  raw : Bool
  err : Option W16
  /-- every bundle is stored raw, whatever a lane makes of it -/
  store : Bool := false

/-- One bundle, or the clear bytes of a stream that is not compressed, joins a stream's open segment (R76, R217, R218, R241). -/
def CodeRun.chunk (r : CodeRun) (id seq : Nat) (l : List Byte) : CodeRun :=
  let x := (r.s.streamOf id).openSeg
  let x := { x with lastRec := seq, touched := if x.touched.contains seq then x.touched else x.touched ++ [seq] }
  if x.cls.toNat % 4 = 0 then
    { r with s := r.s.putStream id { x with body := x.body ++ l, orig := x.orig + l.length }, raw := false }
  else if r.store then
    let out := [0xB0, 0] ++ leBytes 2 (l.length - 1) ++ leBytes 2 0 ++ l
    { r with s := r.s.putStream id { x with ctx := x.ctx.append l, body := x.body ++ out, orig := x.orig + l.length } }
  else
    let b := r.s.laneBody x.ctx l (r.bodies.headD [])
    let s := r.s.keepCoded x.ctx l b
    let (ok, small, ctx) := x.ctx.code (s.fld F.CMP_CTL.GAIN_PCT) l b
    let coded := ok && small
    let out := if coded then Thatch.header l.length b.length ++ b else [0xB0, 0] ++ leBytes 2 (l.length - 1) ++ leBytes 2 0 ++ l
    { r with
      s := s.putStream id { x with ctx := ctx, body := x.body ++ out, orig := x.orig + l.length }
      bodies := r.bodies.drop 1
      raw := r.raw && !coded }

/-- Content joins a stream in bundles of at most 65,536 bytes, segments ending at the stream's access point size (R216, R384). -/
def CodeRun.content (id seq : Nat) : Nat → CodeRun → List Byte → CodeRun
  | 0, r, _ => r
  | k + 1, r, l =>
    if l.isEmpty ∨ r.err.isSome then r
    else
      let x := r.s.streamOf id
      let n := min (min 65536 (x.apSize.toNat - x.orig)) l.length
      let r := r.chunk id seq (l.take n)
      let r := if (r.s.streamOf id).orig < x.apSize.toNat then r
        else
          let (s, e) := r.s.endSegment id
          { r with s := s, err := e }
      CodeRun.content id seq k r (l.drop n)

/-- A record with its header coded into its stream's segments, from given header flags. -/
def State.codeRecord (s : State) (id seq flags : Nat) (data : List Byte) (bodies : List (List Byte)) (store : Bool := false) : CodeRun :=
  let s := s.putStream id ((s.streamOf id).openSeg.beginRecord seq)
  let l := recordHeader flags (BitVec.ofNat 32 id) seq data ++ data
  CodeRun.content id seq (l.length / 32768 + 3) ⟨s, bodies, true, none, store⟩ l

/-- A record joins its stream's segments (R73, R76, R242): with flag bit 3 set where every bundle returns NO_GAIN, be it coded with that
bit or without; where only the header without it does so, its bundles are stored raw with the bit set.
DESIGN CHOICE: log entry 93. -/
def State.segmentRecord (s : State) (id seq : Nat) (data : List Byte) (bodies : List (List Byte)) : State × Option W16 :=
  let x := s.streamOf id
  let compressed := x.cls.toNat % 4 != 0
  let flags := compressed.toNat + 2 * (x.tkid != 0).toNat + 4 * data.isEmpty.toNat
  if !compressed then
    let r := s.codeRecord id seq flags data bodies
    (r.s, r.err)
  else
    let a := s.codeRecord id seq (flags + 8) data bodies
    let b := { s with coded := a.s.coded }.codeRecord id seq flags data a.bodies
    let c := { s with coded := b.s.coded }.codeRecord id seq (flags + 8) data b.bodies true
    let r := if a.raw then a else if b.raw then c else b
    (r.s, r.err)

/-- Whether the open segment of a stream ends with its commit group: one of a point stream under 65,536 bytes does so only where the
write session ends (R228). -/
def Stream.mayEnd (x : Stream) (session : Bool) : Bool := x.orig != 0 && (session || x.cls.toNat % 4 != 2 || decide (65536 ≤ x.orig))

/-- The open segments of streams are finished, one after another, as far as R228 lets them. -/
def State.endSegments (s : State) (session : Bool) : List Nat → State × Option W16
  | [] => (s, none)
  | id :: ids =>
    if !(s.streamOf id).mayEnd session then State.endSegments s session ids
    else match s.endSegment id with
      | (s, none) => State.endSegments s session ids
      | (s, some e) => (s, some e)

/-- The open group fails (R339). -/
def State.failGroup (s : State) (st : W16) : State := s.failFrom s.openGroup st

/-! ## Reading units back (R14, R73, R75 to R77, R216, R229, R357) -/

/-- What reading has made of a stream: its clear record stream since the first record header met, its run context, and the sequence of
the segment that follows; none before the first segment that can be decoded (R76, R229). -/
structure UnitRead where
  clear : List Byte := []
  synced : Bool := false
  ctx : Ctx := Ctx.fresh true 0
  next : Option Nat := none

/-- A reading taken up at a segment header (R76, R229): what came before stands only where this segment follows it in sequence. -/
def UnitRead.follow (u : UnitRead) (h : List Byte) : UnitRead := if u.next = some (natAt h 56 4) then u else {}

/-- Whether a segment can be decoded (R76, R229): decoding of a run stream starts at a segment with the run-start bit set. -/
def UnitRead.starts (u : UnitRead) (h : List Byte) : Bool :=
  natAt h 2 2 % 4 != 1 || (natAt h 2 2).testBit 2 || u.next.isSome

/-- The unit stream from a byte further on (R72): the bytes, and for each yealm left how many of them are its own. -/
def dropUnits (n : Nat) (l : List Byte) : List Nat → List Byte × List Nat
  | [] => (l.drop n, [])
  | m :: ms => if n < m then (l.drop n, (m - n) :: ms) else dropUnits (n - m) (l.drop m) ms

/-- Bundles of a segment body decoded (R216, R230): the clear bytes and the context after them. -/
def readBundles : Nat → Ctx → List Byte → List Byte → Option (List Byte × Ctx)
  | 0, _, _, _ => none
  | k + 1, x, acc, b =>
    if b.isEmpty then some (acc, x)
    else
      let n := 6 + (if Thatch.isRaw b then Thatch.origLen b else Thatch.bodyLen b)
      match Thatch.bundle x.view x.rep x.codeLens (b.take n) with
      | .error _ => none
      | .ok r => readBundles k { (x.append r.out) with rep := r.rep } (acc ++ r.out) (b.drop n)

/-- The clear content of a segment unit: deciphered under its tenant key, its tag compared, and decompressed. -/
def State.readSegment (s : State) (u : UnitRead) (h b : List Byte) : Except W16 (List Byte × Ctx) :=
  let cls := natAt h 2 2 % 4
  let iv := bytesAt h 20 12
  let plain : Except W16 (List Byte) :=
    if natAt h 48 8 = 0 then .ok b
    else match s.keyFor (BitVec.ofNat 64 (natAt h 48 8)) true with
      | none => .error St.KEY_EMPTY
      | some k =>
        if gcmTag k.bytes iv (segAad h) b ≠ bytesAt h 32 16 then .error St.TAG_FAIL
        else .ok (xorBytes b (gcmStream k.bytes iv b.length))
  let engines : Option W16 := if natAt h 48 8 ≠ 0 ∧ !s.engineOn 1 ∨ cls ≠ 0 ∧ !s.engineOn 0 then some St.NOT_READY else none
  let plain := match engines with
    | some e => Except.error e
    | none => plain
  match plain with
  | .error e => .error e
  | .ok b =>
    if cls = 0 then (if b.length = natAt h 12 4 then .ok (b, u.ctx) else .error St.BAD_PARAM)
    else
      let x := if cls = 2 ∨ (natAt h 2 2).testBit 2 then Ctx.fresh true 0 else u.ctx
      match readBundles (b.length + 1) x [] b with
      | none => .error St.BAD_PARAM
      | some (l, x) => if l.length = natAt h 12 4 then .ok (l, x) else .error St.BAD_PARAM

/-- A record of a stream and sequence in a clear record stream (R76): its bytes and CRC-32C, once all of it is there. -/
def scanRecords (stream seq : Nat) : Nat → List Byte → Option (List Byte × Nat)
  | 0, _ => none
  | k + 1, l =>
    let n := natAt l 4 4
    if l.length < 32 + n ∨ l.length < 32 ∨ natAt l 28 4 ≠ (crc32c (bytesAt l 0 28)).toNat then none
    else if natAt l 8 4 = stream ∧ natAt l 16 8 = seq then some (bytesAt l 32 n, natAt l 24 4)
    else scanRecords stream seq k (l.drop (32 + n))

/-- A record found in a unit stream that starts with a unit header, `ends` telling how many bytes of each yealm are left in it (R72):
none where it is not there. Pad, or the zero byte that one byte takes (R74), goes to the end of its yealm. -/
def State.readUnits (s : State) (stream seq : Nat) : Nat → UnitRead → List Byte → List Nat → Except W16 (Option (List Byte × Nat))
  | 0, _, _, _ => .ok none
  | k + 1, u, l, ends =>
    let kind := natAt l 0 2
    let left := ends.headD 0
    if left ≠ 0 ∧ (kind = 0x7A00 ∨ (left = 1 ∧ l.headD 0 = 0)) then
      let (l, ends) := dropUnits left l ends
      State.readUnits s stream seq k u l ends
    else if kind = 0x7A01 then
      if l.length < 32 then .ok none
      else if natAt l 28 4 ≠ (crc32c (bytesAt l 0 28)).toNat then .error St.CRC_FAIL
      else
        let n := natAt l 4 4
        if natAt l 8 4 = stream ∧ natAt l 16 8 = seq then .ok (some (bytesAt l 32 n, natAt l 24 4))
        else
          let (l, ends) := dropUnits (32 + n) l ends
          State.readUnits s stream seq k u l ends
    else if kind = 0x7A02 then
      if l.length < 64 then .ok none
      else if natAt l 60 4 ≠ (crc32c (bytesAt l 0 60)).toNat then .error St.CRC_FAIL
      else
        let n := natAt l 8 4
        let h := bytesAt l 0 64
        let (rest, ends) := dropUnits (64 + n) l ends
        let v := u.follow h
        if natAt l 4 4 ≠ stream then State.readUnits s stream seq k u rest ends
        else if !v.starts h then State.readUnits s stream seq k {} rest ends
        else match s.readSegment v h (bytesAt l 64 n) with
          | .error e => .error e
          | .ok (b, x) =>
            let at' := natAt l 16 4
            let v : UnitRead :=
              if v.synced then { v with clear := v.clear ++ b, ctx := x }
              else if at' = 0xFFFFFFFF then { v with ctx := x }
              else { v with clear := b.drop at', synced := true, ctx := x }
            let v := { v with next := some (natAt h 56 4 + 1) }
            match scanRecords stream seq (v.clear.length / 32 + 1) v.clear with
            | some r => .ok (some r)
            | none => State.readUnits s stream seq k v rest ends
    else .ok none

end Sys2Proof.Machine
end

