-- ==== Sys2Proof/Machine/Mount.lean ====
section
/-!
DEFINITION. Mounting a cartridge: the search for the end of data (R65 to R67), the format record (R69), the newest index set (R70), the
locator (R71), and what is rebuilt from them (R340, R427).
-/
namespace Sys2Proof.Machine

/-! ## The chain of seals (R62, R65, R66) -/

/-- Place on tape of a found course: that of its first bit. -/
def foundAt (c : FoundCourse) : Nat := tapePlace c.wrap (lposSeg c.wrap c.lpos) c.bit

/-- Whether a course makes a seal valid after another, or as the format seal (R65). -/
def sealValid (ridge : Bool) (prev : Option SealRec) (c : FoundCourse) : Bool :=
  let r := c.data
  c.c1 && headerOk c.hdr && hdrIndex c.hdr == 254 && natAt r 0 4 == 0x4C414553 && natAt r 1020 4 == (crc32c (bytesAt r 0 1020)).toNat &&
    (match prev with
    | none => recSeq r == 0
    | some p => recSeq r == p.seq + 1 && natAt r 32 4 == p.crc.toNat && recFirst r == nextFirst ridge ((recFlags r).testBit 4) p.last)

/-- The seal of a record from the courses of it that were read (R62): the highest rewrite count names the last repeat, and on each
channel its end follows by the packing from a course read there. -/
def sealOfCourses (r : List Byte) (l : List FoundCourse) : SealRec :=
  let l := l.filter fun c => c.c1 && headerOk c.hdr && hdrIndex c.hdr == 254 && c.data == r
  let top := l.foldl (fun m c => max m (hdrRewrite c.hdr)) 0
  let chans := (l.map fun c => c.chan).eraseDups
  let begins := chans.map fun k =>
    (k, (l.filter fun c => c.chan == k).foldl (fun m c => min m (foundAt c)) (tapePlace 368 0 0))
  let ends := chans.filterMap fun k => ((l.filter fun c => c.chan == k).getLast?).map fun c =>
    let n := top + 1 - hdrRewrite c.hdr
    let p := packEnd (4 * n) (lposSeg c.wrap c.lpos, c.bit) 1 n
    (k, tapePlace c.wrap p.1 p.2)
  { seq := recSeq r, first := recFirst r, last := recLast r, skip := recSkip r, idxFirst := recIdxFirst r,
    idxCount := recIdxCount r, flags := recFlags r, wrap := natAt r 48 2, lpos := natAt r 44 4,
    crc := BitVec.ofNat 32 (natAt r 1020 4), selector := (l.map fun c => hdrSelector c.hdr).headD 0, record := r,
    begins := begins, ends := ends }

/-- The end of a seal, furthest in the direction of travel. -/
def SealRec.end (q : SealRec) : Nat := placeOn q.ends 64

/-- Segments of data zone that the search for the next seal covers (R66). -/
def searchSegs : Nat := 33300 * 170

/-- The stretches of data zone without a course, in the order of travel and across wraps: place of the first segment and segments that
count. An end of a wrap too short for a yealm is what R39 leaves, and does not count. -/
def gapRuns : List (Nat × Nat × Nat) → List (Nat × Nat)
  | [] => []
  | (w, k, n) :: l =>
    let n := min n (segsPerWrap - k)
    let toEnd := k + n == segsPerWrap
    let e := if toEnd && decide (n < 170) then [] else [(tapePlace w k 0, n)]
    match e, l.head?, gapRuns l with
    | [(p, n)], some (v, 0, _), (_, m) :: r => if toEnd && v == w + 1 then (p, n + m) :: r else e ++ gapRuns l
    | _, _, r => e ++ r

/-- Whether the search of R66 from one place reaches another: within the bound, before any stretch of two yealm lengths without a
course. -/
def reaches (gaps : List (Nat × Nat × Nat)) (from' to' : Nat) : Bool :=
  decide (to' / 16384 ≤ from' / 16384 + searchSegs) &&
    !(gapRuns gaps).any fun e => decide (from' ≤ e.1) && decide (e.1 < to') && decide (340 ≤ e.2)

/-- The chain from a seal on (R66), over the courses after it in order of travel. -/
def chainFrom (ridge : Bool) (f : TapeFind) : List FoundCourse → SealRec → List SealRec
  | [], q => [q]
  | c :: l, q =>
    if q.end ≤ foundAt c ∧ sealValid ridge (some q) c ∧ reaches f.gaps q.end (foundAt c) then
      q :: chainFrom ridge f l (sealOfCourses c.data f.seals)
    else chainFrom ridge f l q

/-- The chain that starts at the first course that makes a seal of this kind valid. -/
def chainAt (ridge : Bool) (f : TapeFind) (p : FoundCourse → Bool) : List SealRec :=
  match f.seals.dropWhile fun c => !p c with
  | [] => []
  | c :: l => chainFrom ridge f l (sealOfCourses c.data f.seals)

/-- Whether a locator is whole (R71). -/
def locatorOk (b : List Byte) : Bool :=
  b.length == 32 && natAt b 0 4 == 0x4C314655 && natAt b 28 4 == (crc32c (bytesAt b 0 28)).toNat

/-- Whether a course confirms a locator on tape (R71): it is of a whole seal of its sequence number, wrap and LPOS. -/
def confirms (b : List Byte) (c : FoundCourse) : Bool :=
  let r := c.data
  c.c1 && headerOk c.hdr && hdrIndex c.hdr == 254 && natAt r 0 4 == 0x4C414553 && natAt r 1020 4 == (crc32c (bytesAt r 0 1020)).toNat &&
    recSeq r == natAt b 4 8 && natAt r 48 2 == natAt b 12 2 && natAt r 44 4 == natAt b 16 4

/-- The chain from the seal that a whole locator names and the tape confirms (R71). -/
def locatedChain (ridge : Bool) (f : TapeFind) : List SealRec :=
  if locatorOk f.locator then chainAt ridge f (confirms f.locator) else []

/-- The chain of valid seals (R65, R66, R71): none without a valid format seal; with one, the seals that follow it as far as they were
read, and from the seal on that a confirmed locator names. A locator whose sequence number the followed chain gives to another
seal is stale.
DEDUCED: log entry 53. -/
def sealChain (ridge : Bool) (f : TapeFind) : List SealRec :=
  match chainAt ridge f (sealValid ridge none), locatedChain ridge f with
  | [], _ => []
  | l, [] => l
  | l, q :: m => if l.any fun r => decide (q.seq ≤ r.seq) then l else l ++ q :: m

/-- The chain up to the seal after which writing resumes (R67, R427): the last that holds, or all of it where none does. -/
def chainTo (p : SealRec → Bool) (l : List SealRec) : List SealRec :=
  if l.any p then (l.reverse.dropWhile fun q => !p q).reverse else l

/-- The team blocks of a resync: this member's own last seal's, and those gathered (R427). -/
def resyncBlocks (r : Resync) (q : SealRec) : List (List Byte) := bytesAt q.record 736 192 :: r.blocks

/-- E (R427): the lowest stripe at offset 24 of the blocks. -/
def resyncStripe (r : Resync) (q : SealRec) : Nat :=
  r.blocks.foldl (fun n b => min n (natAt b 24 4)) (natAt q.record 760 4)

/-- The block that the leak map of a resync is taken from (R427): the leader's, else the second's, else the first of highest LOW. -/
def resyncSource (r : Resync) (q : SealRec) : List Byte :=
  let bit (k : Nat) (b : List Byte) : Bool := (natAt b 11 1).testBit k
  match (resyncBlocks r q).find? (bit 0), (resyncBlocks r q).find? (bit 1) with
  | some b, _ => b
  | none, some b => b
  | none, none => (resyncBlocks r q).foldl (fun x b => if natAt x 28 4 < natAt b 28 4 then b else x) (bytesAt q.record 736 192)

/-- The leak map taken at a resync (R427): LOW and window; where neither leader nor second is there, every region after a survivor's
last seal is dirty. -/
def resyncMap (r : Resync) (q : SealRec) (spr : Nat) : Nat × Nat :=
  let b := resyncSource r q
  let low := natAt b 28 4
  let ends := (resyncBlocks r q).map fun x => natAt x 24 4 / spr
  let dirty (i : Nat) : Bool := (natAt b 11 1 % 4 == 0 && ends.any fun e => decide (e ≤ low + i)) || (natAt b 64 128).testBit i
  (low, ((List.range 1024).filter dirty).foldl (fun n i => n + 2 ^ i) 0)

/-- The chain to the earlier seal that the host names, where it names one (R67). -/
def namedChain (ridge : Bool) (f : TapeFind) : List SealRec :=
  match f.resume with
  | some n => chainTo (fun q => q.seq == n) (sealChain ridge f)
  | none => sealChain ridge f

/-- The seals that a mount leaves in force: to the earlier seal that the host names, and to the one whose team block gives stripe E
(R67, R427). -/
def resumedChain (ridge : Bool) (f : TapeFind) : List SealRec :=
  let l := namedChain ridge f
  match f.resync, l.getLast? with
  | some r, some z => chainTo (fun q => q.flags.testBit 0 && natAt q.record 760 4 == resyncStripe r z) l
  | _, _ => l

/-! ## The newest index set (R70) -/

/-- Whether a part of an index set is whole (R70). -/
def indexPartOk (q : SealRec) (k : Nat) (b : List Byte) : Bool :=
  let n := natAt b 12 4
  natAt b 0 4 == 0x58444E49 && natAt b 4 2 == 1 && natAt b 6 2 == k && natAt b 8 2 == q.idxCount && natAt b 16 8 == q.seq &&
    natAt b 60 4 == (crc32c (bytesAt b 0 60 ++ bytesAt b 64 (32 * n))).toNat

/-- The index entry of 32 bytes (R70). -/
def indexEntryOf (b : List Byte) : IndexEntry :=
  { stream := BitVec.ofNat 32 (natAt b 0 4), flags := natAt b 4 4, first := natAt b 8 8, last := natAt b 16 8,
    yealm := natAt b 24 4, off := natAt b 28 4 }

/-- The entries of an index set, where every part of it was read and is whole. -/
def readIndex (f : TapeFind) (q : SealRec) : Option (List IndexEntry) :=
  if q.idxCount = 0 then none
  else (List.range q.idxCount).foldlM (fun (acc : List IndexEntry) (k : Nat) =>
    match f.index.find? fun x => x.yealm == q.idxFirst + k with
    | some x =>
      if indexPartOk q k x.data then
        some (acc ++ (List.range (natAt x.data 12 4)).map fun e => indexEntryOf (bytesAt x.data (64 + 32 * e) 32))
      else none
    | none => none) []

/-- Where a confirmed locator puts the newest index set (R71): wrap, LPOS, and yealm of its first part, with the seal of its group; none
where a later seal of the chain has a newer set. -/
def locatorIndex (f : TapeFind) (l : List SealRec) : Option (SealRec × Nat × Nat × Nat) :=
  let y := natAt f.locator 24 4
  if !locatorOk f.locator then none
  else match l.reverse.find? fun q => q.flags.testBit 3 with
    | some q => if q.idxFirst = y ∧ q.seq ≤ natAt f.locator 4 8 then some (q, natAt f.locator 14 2, natAt f.locator 20 4, y) else none
    | none => none

/-- The newest valid index set: of the latest group whose seal has flag bit 3 set and whose set is whole. -/
def newestIndex (f : TapeFind) (l : List SealRec) : Option (SealRec × List IndexEntry) :=
  (l.reverse.filter fun q => q.flags.testBit 3).findSome? fun q => (readIndex f q).map fun e => (q, e)

/-- The entries of a seal's index delta (R64), as index entries of the units they name. -/
def deltaEntries (r : List Byte) : List IndexEntry :=
  (List.range (min 28 (natAt r 42 2))).map fun k =>
    let b := bytesAt r (64 + 24 * k) 24
    { stream := BitVec.ofNat 32 (natAt b 0 4), flags := 0, first := natAt b 4 8, last := natAt b 4 8 + natAt b 12 4 - 1,
      yealm := natAt b 16 4, off := natAt b 20 4 }

/-- What the cartridge's index and the seals after it say of the units on tape (R64, R70). -/
def tapeIndex (f : TapeFind) (l : List SealRec) : List IndexEntry :=
  match newestIndex f l with
  | some (q, e) => e ++ (l.filter fun r => decide (q.seq < r.seq)).flatMap fun r => deltaEntries r.record
  | none => l.flatMap fun r => deltaEntries r.record

/-! ## Rebuilding (R340, R427) -/

/-- A transactional register set by the program set, with its copy in the image where that names a valid buffer (R329, R340). -/
def State.rebuildTxr (s : State) (a : Nat) (v : W64) : State :=
  if s.imageOk then s.tset a v else { s with txr := s.txr.set (fun _ => 0) a v }

/-- A stream of the stream table as the index tells it (R328, R340): slot, ID, next record sequence, and the latest run-start segment's
yealm and offset. The next segment sequence, which neither the seal nor the index holds, is a free value.
DESIGN CHOICE: log entry 94. -/
def State.rebuildStream (s : State) (l : List IndexEntry) (slot : Nat) (id : W32) : State :=
  let mine := l.filter fun e => e.stream == id
  let next := mine.foldl (fun m e => max m (e.last + 1)) 0
  let run := (mine.filter fun e => e.flags.testBit 0 && !e.flags.testBit 2).getLast?
  let seg := (Config.freeW64 s.freeCtr).toNat % 2 ^ 32
  let s := s.nextFree.putStream id.toNat { s.streamOf id.toNat with nextSeq := next, segSeq := seg }
  let words := [BitVec.ofNat 64 id.toNat, BitVec.ofNat 64 next, BitVec.ofNat 64 seg,
    BitVec.ofNat 64 ((run.map fun e => e.yealm).getD 0), BitVec.ofNat 64 ((run.map fun e => e.off).getD 0)]
  s.each words.zipIdx fun s w => s.rebuildTxr (0x100 + 8 * slot + w.2) w.1

/-- The stream table rebuilt in bank 0, one slot a stream, and made current (R328, R340). -/
def State.rebuildStreams (s : State) (l : List IndexEntry) : State :=
  let ids := ((l.map fun e => e.stream).eraseDups).take 256
  (s.each ids.zipIdx fun s e => s.rebuildStream l e.2 e.1).rebuildTxr 4 0

/-- Bits `lo` to `lo + n - 1` of a word replaced. -/
def putBits (w lo n v : Nat) : Nat := w % 2 ^ lo + v % 2 ^ n * 2 ^ lo + w / 2 ^ (lo + n) * 2 ^ (lo + n)

/-- The team record in slot 0 rebuilt from a seal's team block (R340, R426, R427): what the block does not hold stays.
DEDUCED: log entry 92. -/
def State.rebuildTeam (s : State) (b : List Byte) : State :=
  let put (s : State) (w lo n v : Nat) : State := s.rebuildTxr (0x10000 + w) (BitVec.ofNat 64 (putBits (s.tw 0 w) lo n v))
  let self := natAt b 8 1
  let s := put s 0 0 64 (natAt b 0 4 + 2 ^ 32 * natAt b 4 2 + 2 ^ 48 * (natAt b 6 1 % 8) + 2 ^ 51 * (natAt b 7 1 % 32) +
    2 ^ 56 * (natAt b 11 1 / 4 % 2) + 2 ^ 57 * natAt b 10 1)
  let s := put (put (put s 1 4 5 self) 1 32 16 (natAt b 32 2)) 1 48 16 (natAt b 34 2)
  let s := put s 2 0 64 (natAt b 16 8)
  let s := put (put s 3 0 32 (natAt b 12 4)) 3 32 32 (natAt b 24 4)
  let s := put s 4 0 32 (natAt b 28 4)
  let s := put s (0x10 + self) 16 2 (natAt b 9 1)
  let s := s.each (List.range 18) fun s m => put s (0x10 + m) 18 1 (natAt b 36 3 / 2 ^ m)
  s.each (List.range 16) fun s k => put s (0x40 + k) 0 64 (natAt b (64 + 8 * k) 8)

/-- A resync of the team (R421, R427), `q` the last seal before it: the leak map is taken, then the change that the leader commits: LOW
at the region of E with an empty window, in which no region counts as clean; members that are not reachable lost, and with one lost
STATE 3, or 6 where the lost outnumber r.
DEDUCED: log entry 92. -/
def State.resyncTeam (s : State) (q : SealRec) (r : Resync) : State :=
  let put (s : State) (w lo n v : Nat) : State := s.rebuildTxr (0x10000 + w) (BitVec.ofNat 64 (putBits (s.tw 0 w) lo n v))
  let window (s : State) (v : Nat) : State := s.each (List.range 16) fun s k => put s (0x40 + k) 0 64 (v / 2 ^ (64 * k))
  let (low, map) := resyncMap r q (s.spr 0)
  let s := window (put s 4 0 32 low) map
  let e := resyncStripe r q
  let s := put (window (put s 4 0 32 (e / s.spr 0)) (2 ^ 1024 - 1)) 3 32 32 e
  let reached := (resyncBlocks r q).map fun b => natAt b 8 1
  let lost := (List.range (s.memberCount 0)).filter fun m => !reached.contains m && !s.memberLost 0 m
  let s := s.each lost fun s m => put (put s (0x10 + m) 18 1 1) (0x10 + m) 32 32 e
  if lost.isEmpty then s
  else put s 1 0 4 (if s.redundancy 0 < ((List.range (s.memberCount 0)).filter (s.memberLost 0)).length then 6 else 3)

/-- The transactional registers as the mount rebuilds them from the seal `q` after which writing resumes and the index (R340,
R427); `z` is the last valid seal, whose team block a resync goes by. -/
def State.rebuild (s : State) (q z : SealRec) (l : List IndexEntry) (resync : Option Resync) : State :=
  let next := nextFirst s.fmt.ridgeProtection true q.last
  let s := (((s.rebuildTxr 0 (BitVec.ofNat 64 q.seq)).rebuildTxr 1 (BitVec.ofNat 64 q.crc.toNat)).rebuildTxr 2
    (BitVec.ofNat 64 (natAt q.record 28 4))).rebuildTxr 3 (BitVec.ofNat 64 next)
  let s := s.rebuildStreams l
  let s := if q.flags.testBit 0 then s.rebuildTeam (bytesAt q.record 736 192) else s
  match resync with
  | some r => s.resyncTeam z r
  | none => s

/-! ## Mounting -/

/-- What a mount reads: before S8 is done the scout configuration, which reads seals on one quarter (R146, R467). -/
def State.scouted (s : State) (f : TapeFind) : TapeFind :=
  if (s.fld F.BOOT_STAT.DONE).testBit 8 then f else { f with seals := f.seals.filter fun c => c.chan / 16 == s.scoutQuarter }

/-- FMT as a mount leaves it: the chain of R65, with no course read yet. A cartridge without a chain counts as unformatted: its dark
table is empty and its ridge protection that of the reset state; with a chain but no whole format record ridge protection counts as
off, which the spec leaves open.
DESIGN CHOICE: log entry 105. -/
def State.mountFmt (s : State) (f : TapeFind) : State :=
  let f := s.scouted f
  let ridge := formatOk f.format && (natAt f.format 6 2).testBit 0
  let chain := resumedChain ridge f
  let index := match locatorIndex f chain, newestIndex f chain with
    | some (_, e), _ => some e
    | none, some (q, _) =>
      (f.index.find? fun (x : FoundIndex) => x.yealm == q.idxFirst).map fun (x : FoundIndex) => (x.wrap, x.lpos, q.idxFirst)
    | none, none => none
  { s with
    fmt := { s.fmt with
      chain := chain
      darkTable := match chain.getLast? with
        | some q => bytesAt q.record 928 8
        | none => ({} : Fmt).darkTable
      ridgeProtection := if chain.isEmpty then ({} : Fmt).ridgeProtection else ridge
      index := index.getD (0, 0, 0)
      copies := []
      decoded := []
      waiting := []
      c2At := []
      passed := []
      ended := []
      sealFailed := []
      quadStarts := [] }
    wrc := { s.wrc with placed := false, resume := [] } }

/-- The program set's view of a cartridge with a chain: the group that writing resumes with (R67, R90), and the index. -/
def State.mountHst (s : State) (l : List IndexEntry) : State :=
  { s with hst := { s.hst with group := s.resumeGroup, index := l, quadNext := quadTop s.fmt.chain + 1 } }

/-- A cartridge mounted (R65 to R71, R340, R427).
DEDUCED: log entry 53. -/
def State.mountTape (s : State) (f : TapeFind) : State :=
  let s := { s with hst := { s.hst with mounted := true, records := [], closed := [], sealing := [], streams := [], group := {}, index := [],
                                        quadNext := quadBase + 1 } }
  let g := s.scouted f
  let s := s.mountFmt f
  match s.fmt.chain.getLast? with
  | some q =>
    let l := tapeIndex g s.fmt.chain
    let z := ((namedChain s.fmt.ridgeProtection g).getLast?).getD q
    (s.rebuild q z l f.resync).mountHst l
  | none => s

end Sys2Proof.Machine
end

