-- ==== Sys2Proof/Machine/ReadChannel.lean ====
section
/-!
DEFINITION. The read channel (R113 to R150) beside its signal path: guards and resume fields, hand-off and calibration, framing, and
the detector passes and C1 of a copy.
-/
namespace Sys2Proof.Machine

/-! ## Guards, resume fields and lock (R117, R119, R128) -/

/-- Channel bits that pass from a phase until an ADC sample count at a step. -/
def bitsUntil (count : Nat) (phase step : Rat) : Nat :=
  if step ≤ 0 then 0 else (-(-((count - phase) / step)).floor).toNat

/-- The channel at a leading guard (R119): its phase and integrator saved, and what the bits before it still need of the equaliser,
which sees six samples beyond the bit at its main tap (R120). -/
def RChan.guarded (r : RChan) (step : Rat) : RChan :=
  { r with savedPhase := r.phase, savedFreq := r.freq, savedCount := r.count + r.ahead.length, inGuard := true
           tail := bitsUntil r.adcCount r.phase step + 6 }

/-- Channel bits per step of a channel's loop at the tape's speed (R116); none while the tape stands. -/
def State.loopStep (s : State) (f : Rat) : Rat := if s.tapeSpeed = 0 then 0 else bitStep s.tapeSpeed f

/-- BATTEN_GUARD (R119, R134, R178): at a leading guard the data phase and integrator are saved, and the samples that follow go to SRV.
The channel's lock to the batten preamble is the acquisition of R179.
DEDUCED: log entry 95. -/
def execBattenGuard (c : Chan) (adc : List Byte) (s : State) : Res :=
  if !s.listens c || (s.rchan c).inGuard then .next s
  else
    let s := s.hear c adc
    let r := s.rchan c
    let s := s.setRchan c (r.guarded (s.loopStep r.freq))
    let s := s.setSrvChan c { s.srvChan c with stretch := [], stretchAt := r.adcCount, ready := false }
    .next (s.setFlag F.RDC_CH_STAT.FROZEN true c)

/-- The channel at a mini-preamble (R119): the saved phase advanced by the bits that have passed at the saved rate, and a new segment
of the sample history, which keeps the latest 24,576 samples (R113). -/
def RChan.restored (r : RChan) (step : Rat) : RChan :=
  let n := bitsUntil r.adcCount r.savedPhase step
  let count := r.savedCount + n
  { r with
    phase := phaseOf (r.savedPhase + n * step)
    freq := r.savedFreq
    inGuard := false
    count := count
    nextNum := r.nextNum + 1
    heard := { num := r.nextNum, start := count } :: r.heard.filter fun g => decide (count < g.start + g.bits.length + 24576) }

/-- MINI_PREAMBLE_RESTORE (R118, R119, R178): the saved phase advanced by the time that has passed at the saved rate; the acquisition
gains refine it over the 24 bits that follow. The batten's trailing guard has passed the reader, so SRV may decode it.
DEDUCED: log entry 75. -/
def execMiniPreambleRestore (c : Chan) (adc : List Byte) (s : State) : Res :=
  if !s.listens c || !(s.rchan c).inGuard then .next s
  else
    let s := s.hear c adc
    let s := if 0 < (s.rchan c).tail then s.endStretch c else s
    let r := s.rchan c
    let s := s.setRchan c (r.restored (s.loopStep r.savedFreq))
    let s := s.setSrvChan c { s.srvChan c with ready := true }
    .next ((s.showLoops c).setFlag F.RDC_CH_STAT.FROZEN false c)

/-- TIMING_LOCK_LOSS (R117): once the integrator has stood at its clamp for 256 bits the channel clears LOCK. -/
def execTimingLockLoss (c : Chan) (adc : List Byte) (s : State) : Res :=
  let s := s.hear c adc
  .next (if s.listens c && decide (256 ≤ (s.rchan c).clampRun) then s.setFlag F.RDC_CH_STAT.LOCK false c else s)

/-- TIMING_LOCK (R117): once the RMS phase error over 256 bits lies below 0.125 of a bit the channel sets LOCK. -/
def execTimingLock (c : Chan) (adc : List Byte) (s : State) : Res :=
  let s := s.hear c adc
  .next (if s.listens c && (s.rchan c).perrSquare.any (fun m => decide (m < 1 / 64)) then s.setFlag F.RDC_CH_STAT.LOCK true c else s)

/-- LONG_DEFECT_END (R128): once a flagged stretch longer than 4,096 bits has ended the gain loop takes the acquisition step for 256
bits. -/
def execLongDefectEnd (c : Chan) (adc : List Byte) (s : State) : Res :=
  let s := s.hear c adc
  let r := s.rchan c
  .next (if s.listens c && decide (4096 < r.defEnded) then s.setRchan c { r with acqLeft := 256, defEnded := 0 } else s)

/-! ## Marks (R129, R139, R140) -/

/-- One position tried by a mark search: its offset in channel bits from the predicted position, the unflagged bits that differ from
the pattern, and the bits that carry no defect flag. -/
structure MarkCand where
  off : Int
  errs : Nat
  unflagged : Nat
  deriving DecidableEq, Repr

/-- A position compared with the pattern (R129): flagged bits, and bits not heard, count neither way. -/
def matchMark (off : Int) (pattern : List Bool) (l : List (Option (HeardBit × Bool))) : MarkCand :=
  let seen := (List.zip pattern l).filterMap fun e => match e.2 with
    | some (h, false) => some (decide (h.bit = e.1))
    | _ => none
  ⟨off, (seen.filter fun ok => !ok).length, seen.length⟩

/-- The positions within ±w of the middle of a stretch that begins w bits before the predicted position. -/
def tryMarks (w : Nat) (pattern : List Bool) (l : List (Option (HeardBit × Bool))) : List MarkCand :=
  (List.range (2 * w + 1)).map fun (i : Nat) => matchMark ((i : Int) - w) pattern ((l.drop i).take pattern.length)

/-- The resume mark (R35), the first and the second course mark (R40). -/
def resumePattern : List Bool := bitsOf 16 0xE32C
def firstPattern : List Bool := bitsOf 32 0x5CB1E268
def secondPattern : List Bool := bitsOf 32 0x6D4F0B39

/-- Whether a mark is acceptable: its window about a position, its unflagged bits and its errors (R129, R139, R140). -/
def markOk (k : MarkCand) (centre : Int) (win unflagged errs : Nat) : Bool :=
  decide ((k.off - centre).natAbs ≤ win) && decide (unflagged ≤ k.unflagged) && decide (k.errs ≤ errs)

/-- The better of two positions: fewer errors, then nearer; of two equally near ones the spec names none.
DESIGN CHOICE: log entry 43. -/
def betterMark (centre : Int) (a b : MarkCand) : MarkCand :=
  if a.errs ≠ b.errs then (if a.errs < b.errs then a else b)
  else
    let x := (a.off - centre).natAbs
    let y := (b.off - centre).natAbs
    if x < y then a else if y < x then b else if Config.roundTie a.off b.off then a else b

/-- The position taken among those acceptable (R139). -/
def takeMark (l : List MarkCand) (centre : Int) (win unflagged errs : Nat) : Option MarkCand :=
  match l.filter fun k => markOk k centre win unflagged errs with
  | [] => none
  | k :: ks => some (ks.foldl (betterMark centre) k)

/-! ## The segment's resume mark (R131, R136, R139, R144) -/

/-- The resume mark of the segment in progress (R139): 24 bits after the start of its mini-preamble, which batten timing gives. -/
def State.resumeMark (s : State) (c : Nat) : Option MarkCand :=
  let r := s.rchan c
  match r.heard with
  | [] => none
  | g :: _ => takeMark (tryMarks 4 resumePattern (r.look (s.defExt c) g.num (24 - 4 - g.base) 24)) 0 4 12 2

/-- The segment in progress takes its place on tape and its alignment: by its resume mark, or by prediction, which RM_MISS counts. -/
def State.alignSegment (s : State) (c wrap lpos : Nat) : State :=
  let m := s.resumeMark c
  let s := s.setRchan c
    { s.rchan c with
      heard := match (s.rchan c).heard with
        | [] => []
        | g :: gs => { g with base := 40 + (m.map (·.off)).getD 0, wrap := wrap, lpos := lpos } :: gs }
  if m.isSome then s else s.bump F.RDC_CH_CNT0.RM_MISS 1 c

/-- The next LPOS on the way (R183). -/
def nextLpos (wrap l : Nat) : Nat := if wrap % 2 = 0 then l + 1 else l - 1

/-- A channel goes into hunt (R144): places from a bit count on are tested, and no prediction stands. -/
def State.enterHunt (s : State) (c start : Nat) : State :=
  (s.setRchan c { s.rchan c with pred := none, prev := none, shift := 0, huntAt := start }).setFlag F.RDC_CH_STAT.HUNT true c

/-- Where packing stands at a new segment (R38, R144): it restarts at the first segment of a wrap; where the segment does not follow
the one before, the tape has moved while the channel was not reading, and it goes into hunt.
DEDUCED: log entry 44. -/
def State.packingAt (s : State) (c wrap lpos : Nat) : State :=
  let r := s.rchan c
  let first := lpos == segLpos wrap 0
  if first && !s.flag F.RDC_CH_STAT.HUNT c then
    s.setRchan c { r with pred := (r.heard.head?.map fun g => (g.num, 0)), prev := none, shift := 0 }
  else if !first && r.zone.isSome && !(r.wrap == wrap && lpos == nextLpos wrap r.lpos) then
    s.enterHunt c ((r.heard.head?.map (·.start)).getD r.count)
  else s

/-- RESUME_MARK_SEARCH (R131, R139, R144, R149): the segment behind the batten with this LPOS on the wrap that the head stands on. A
channel in table mode loads a new zone's values here; one that a calibration is to stop stops, and does nothing more.
DEDUCED: log entry 44. -/
def execResumeMarkSearch (c : Chan) (lpos : Nat) (adc : List Byte) (s : State) : Res :=
  if !s.listens c || !s.dataSpeed then .next s
  else if (s.rchan c).calStop then .next (s.setRchan c { s.rchan c with calOff := true })
  else
    let s := s.hear c adc
    let w := s.fld F.MOT_WRAP.W
    let z := zoneOf w lpos
    let fresh := (s.rchan c).zone != some z
    let s := s.packingAt c w lpos
    let s := s.setRchan c { s.rchan c with zone := some z, segments := (s.rchan c).segments + 1, wrap := w, lpos := lpos }
    let s := if !s.adaptive && !s.flag F.RDC_CH_STAT.ADAPTIVE c && fresh then s.useZone c else s
    .next (s.alignSegment c w lpos)

/-- The zone entry of the values in use, marked valid (R132, R136). -/
def State.entryOf (s : State) (c : Nat) : List Byte :=
  let taps := (List.range 16).foldl (fun n k => n + s.fld (F.RDC_FIR_TAP.TAP k) c * 2 ^ (12 * k)) 0
  leBytes 1 (s.fld F.RDC_GAIN_CTL.GAIN c) ++ leBytes 1 (s.fld F.RDC_CTF_CTL.BOOST c) ++
    leBytes 2 (s.fld F.RDC_BIAS_CTL.OFFSET c) ++ leBytes 2 (s.fld F.RDC_BIAS_CTL.ASYM c) ++ [1, 0] ++ leBytes 24 taps

/-- ZONE_CAPTURE (R136): at every 4,096th segment, in adaptive mode with CAPTURE, unless the channel is frozen. -/
def execZoneCapture (c : Chan) (s : State) : Res := whileClocked s <|
  let r := s.rchan c
  match r.zone with
  | none => .next s
  | some z =>
    if s.flag F.RDC_CFG.CAPTURE && s.adaptive && s.chanOn c && !s.flag F.RDC_CH_STAT.FROZEN c && r.segments % 4096 == 0 then
      let e := s.entryOf c
      .next (s.each (List.range 8) fun s k => s.setReg (zoneAddr c z + 4 * k) (BitVec.ofNat 32 (natAt e (4 * k) 4)))
    else .next s

/-! ## Enabling, hand-off, calibration (R130, R137, R138, R145, R147 to R149) -/

/-- Whether a hand-off is in progress (R137). -/
def State.handingOff (s : State) : Bool := s.chansOn.any fun c => (s.rchan c).handoffPending

/-- A channel starts (R131, R137, R138, R144): its loops in adaptive mode from its zone or reset values, in table mode its zone taken
anew at the next resume mark, its framer in hunt; in a hand-off it is to switch with the others.
DEDUCED: log entry 44. -/
def State.startChan (s : State) (c : Nat) : State :=
  let r := s.rchan c
  let s := s.setRchan c
    { zone := if s.adaptive then r.zone else none
      cutoff := r.cutoff
      segments := r.segments
      wrap := r.wrap
      lpos := r.lpos
      framed := r.framed
      nextNum := r.nextNum
      adcCount := s.now
      acqFirst := true
      handoffPending := s.handingOff }
  let s := s.setFlag F.RDC_CH_STAT.HUNT true c
  if s.adaptive then (s.useZone c).setFlag F.RDC_CH_STAT.ADAPTIVE true c else s

/-- A write of 1 to a channel's EN (R130, R145): ignored in the dark group; refused for a 17th channel in table mode. -/
def State.chanEnable (s : State) (c : Nat) : State :=
  if s.chanOn c || s.darkGroup == some (c / 4) then s
  else if !s.adaptive && decide (16 ≤ s.chansOn.length) then s.raise F.RDC_STAT.TOO_MANY
  else (s.setFlag F.RDC_CH_CTL.EN true c).startChan c

/-- The hand-off is done once every running channel has switched (R137). -/
def State.handoffCheck (s : State) : State :=
  if s.flag F.RDC_STAT.HANDOFF_DONE || s.handingOff then s
  else (s.raise F.RDC_STAT.HANDOFF_DONE).setFld F.RDC_CFG.MODE 1

/-- A stopped channel: its sample history, its copies and its part in a hand-off are gone. -/
def RChan.stopped (r : RChan) : RChan :=
  { adcCount := r.adcCount, cutoff := r.cutoff, zone := r.zone, segments := r.segments, wrap := r.wrap, lpos := r.lpos,
    calStop := r.calStop, calOff := r.calOff, nextNum := r.nextNum }

/-- A write of 0 to a channel's EN: stopped and powered down. Its reader delivers no battens from here on, so that it has no batten
lock (R154).
DEDUCED: log entry 44. -/
def State.chanDisable (s : State) (c : Nat) : State :=
  let pending := (s.rchan c).handoffPending
  let s := s.setFlag F.RDC_CH_CTL.EN false c
  let s := s.setRchan c (s.rchan c).stopped
  let s := (s.setFlag F.RDC_CH_STAT.LOCK false c).setFlag F.RDC_CH_STAT.HUNT false c
  let s := (s.setFlag F.RDC_CH_STAT.ADAPTIVE false c).setFlag F.RDC_CH_STAT.FROZEN false c
  let s := (s.setLock c false).setWchan c { s.wchan c with goodBattens := 0, anchors := [] }
  let s := s.setSrvChan c { track := (s.srvChan c).track, pes := (s.srvChan c).pes }
  if pending then s.handoffCheck else s

/-- A group becomes the dark group (R145): its channels stop and stay disabled. -/
def State.goDark (s : State) (g : Nat) : State :=
  let s := (s.raise F.RDC_CFG.DARK_EN).setFld F.RDC_CFG.DARK_GRP g
  s.each ([4 * g, 4 * g + 1, 4 * g + 2, 4 * g + 3].filter s.chanOn) State.chanDisable

/-- The scout configuration (R146): table mode with the 16 channels of the scout quarter running and no other.
DEDUCED: log entry 53. -/
def State.enterScout (s : State) : State :=
  let chans := (List.range 16).map fun k => 16 * s.scoutQuarter + k
  let s := s.each (s.chansOn.filter fun c => !chans.contains c) State.chanDisable
  let s := (s.setFld F.RDC_CFG.MODE 0).setFlag F.RDC_STAT.HANDOFF_DONE false
  s.each (chans.filter fun c => !s.chanOn c) State.chanEnable

/-- A write of 1 to HANDOFF (R137). -/
def State.handoff (s : State) : State :=
  let settled (c : Nat) : Bool :=
    (s.fld F.RDC_STAT.CAL_DONE).testBit (c / 4) || (s.fld F.RDC_CAL_FAIL.CAL_FAILED).testBit (c / 4)
  if s.adaptive || s.chansOn.any (fun c => !settled c) then s.raise F.RDC_STAT.CMD_REFUSED
  else
    let s := s.setFlag F.RDC_STAT.HANDOFF_DONE false
    (s.each s.chansOn fun s c => s.setRchan c { s.rchan c with handoffPending := true }).handoffCheck

/-- HANDOFF_CHANNEL_SWITCH (R137): at its next resume mark the channel takes its segment's zone, loads its values and releases
its loops. -/
def execHandoffChannelSwitch (c : Chan) (lpos : Nat) (s : State) : Res := whileClocked s <|
  let r := s.rchan c
  if !s.chanOn c || !r.handoffPending then .next s
  else
    let s := s.setRchan c { r with zone := some (zoneOf (s.fld F.MOT_WRAP.W) lpos), handoffPending := false }
    .next ((s.useZone c).setFlag F.RDC_CH_STAT.ADAPTIVE true c).handoffCheck

/-- The channels of a group (R8). -/
def groupChans (g : Nat) : List Nat := [4 * g, 4 * g + 1, 4 * g + 2, 4 * g + 3]

/-- A write of CAL_GO (R149). -/
def State.calGo (s : State) (g : Nat) : State :=
  if s.flag F.RDC_STAT.CAL_BUSY || s.flag F.WRC_STAT.WRITING || s.darkGroup == some g then s.raise F.RDC_STAT.CMD_REFUSED
  else
    let s := { s with calib := [g] }.raise F.RDC_STAT.CAL_BUSY
    s.each (groupChans g) fun s c => s.setRchan c { s.rchan c with calStop := true }

/-- What the registers say of a calibration that ended (R147). -/
def State.calMarks (s : State) (g : Nat) (ok : Bool) : State :=
  let s := s.setBit F.RDC_CAL_FAIL.CAL_FAILED g (!ok)
  (s.setBit F.RDC_STAT.CAL_DONE g ok).setFlag F.RDC_STAT.CAL_FAIL (!ok)

/-- The same, with a failed group's channels on their reset values (R147). -/
def State.calFlags (s : State) (g : Nat) (ok : Bool) : State :=
  let s := s.calMarks g ok
  if ok then s else s.each (groupChans g) fun s c => (s.useReset c).setFlag F.RDC_CH_CTL.CAL_DEFAULT true c

/-! ## Framing (R140 to R144) -/

/-- A course as the prediction places it (R37, R140). -/
def courseAt (p : Nat × Nat) (shift : Int) : CourseAt :=
  { seg := p.1, l := lastAtom 1 (14553 - p.2), off1 := p.2 + shift, off2 := p.2 + shift }

/-- Whether the second mark lies in the segment in which the course starts (R36). -/
def CourseAt.whole (p : CourseAt) : Bool := decide (27 ≤ p.l)

/-- The course with part 1 moved by an alignment of its first mark, and of its second mark part 2 (R141). -/
def CourseAt.byFirst (p : CourseAt) (d : Int) : CourseAt := { p with off1 := p.off1 + d }
def CourseAt.bySecond (p : CourseAt) (d : Int) : CourseAt :=
  if p.whole then { p with off2 := p.off2 + d } else { p with next2 := p.next2 + d }

/-- The course re-framed from its second mark (R142): 938 bits before it, a batten between them allowed for. -/
def CourseAt.reframed (p : CourseAt) (d : Int) : CourseAt :=
  { p.bySecond d with off1 := p.off1 + d, next1 := if p.whole then p.next1 else p.next1 + d }

/-- The segment and place of course bit k, with what is left of the course in that segment from it on. -/
def CourseAt.spot (p : CourseAt) (k : Nat) : Nat × Int × Nat :=
  let (off, next) := if k < 938 then (p.off1, p.next1) else (p.off2, p.next2)
  if k < atomEnd p.l then (p.seg, off + k, atomEnd p.l - k) else (p.seg + 1, next + ((k : Int) - atomEnd p.l), 9764)

/-- Decided bits of a course with their flags, from course bit k on, within one of its parts. -/
def RChan.span (r : RChan) (ext : Nat) (p : CourseAt) (k len : Nat) : List (Option (HeardBit × Bool)) :=
  let (n, j, here) := p.spot k
  let a := min len here
  let (m, i, _) := p.spot (k + a)
  r.look ext n j a ++ (if a < len then r.look ext m i (len - a) else [])

/-- A header as read at course bit k (R41, R83, R86); none where a bit of it has not been heard. -/
def RChan.header (r : RChan) (ext : Nat) (p : CourseAt) (k : Nat) : Option W64 :=
  let l := r.span ext p k 66
  if l.any (·.isNone) then none
  else
    let bits := l.map fun x => (x.map (·.1.bit)).getD false
    let word := bits.take 32 ++ (bits.drop 33).take 32
    some (BitVec.ofNat 64 (word.foldl (fun n b => 2 * n + b.toNat) 0) ^^^ headerMask)

/-- A header that passes its CRC-16 (R141). -/
def headerPasses (h : Option W64) : Option W64 := h.filter headerOk

/-- The first mark within ±w bits of its place. -/
def RChan.firstMark (r : RChan) (ext : Nat) (p : CourseAt) (w errs : Nat) : Option MarkCand :=
  takeMark (tryMarks w firstPattern (r.look ext p.seg (p.off1 + 48 - w) (32 + 2 * w))) 0 w 24 errs

/-- The second mark within ±w bits of a distance from its place (R140). -/
def RChan.secondMark (r : RChan) (ext : Nat) (p : CourseAt) (centre : Int) (w errs : Nat) : Option MarkCand :=
  let (n, j, _) := p.spot 938
  (takeMark (tryMarks w secondPattern (r.look ext n (j + centre - w) (32 + 2 * w))) 0 w 24 errs).map
    fun k => { k with off := k.off + centre }

/-- The second mark of a course whose first mark and header A are known (R140): within ±2 bits of the place they imply, across a batten
that of the segment's own alignment; or within ±8 of the prediction. -/
def RChan.findSecond (r : RChan) (ext : Nat) (p : CourseAt) (m1 : Option MarkCand) (aOk : Bool) : Option MarkCand :=
  match m1, aOk with
  | some x, true => r.secondMark ext p (if p.whole then x.off else 0) 2 3
  | _, _ => r.secondMark ext p 0 8 3

/-- A course's place as the channel keeps it for FMT: wrap, LPOS and data bits of the segment in which it starts. -/
def RChan.tapeAt (r : RChan) (p : CourseAt) : Nat × Nat :=
  match r.segNo p.seg with
  | some g => (g.wrap, g.lpos)
  | none => (r.wrap, r.lpos)

/-- The channel's bit count at a place. -/
def RChan.countAt (r : RChan) (n : Nat) (j : Int) : Nat :=
  match r.segNo n with
  | some g => ((g.start : Int) + g.base + j).toNat
  | none => r.count

/-- A copy goes to FMT as erased (R143); in the last rows of the table the channel goes into hunt (R144). -/
def State.eraseCopy (s : State) (c : Nat) (p : Nat × Nat) (hunt : Bool) : State :=
  let r := s.rchan c
  let q := courseAt p r.shift
  let (w, l) := r.tapeAt q
  let s := s.setRchan c
    { r with
      framed := r.framed ++ [{ hdr := 0, part1Lost := false, erased := true, wrap := w, lpos := l, bit := p.2 }]
      pred := some (nextCourse p)
      prev := some p }
  let s := s.bump F.RDC_CH_CNT1.ERASED 1 c
  if hunt then s.enterHunt c (r.countAt p.1 (q.off1 + 1)) else s

/-- An aligned copy goes to FMT under a header (R141); the prediction for the next course is taken from its alignment (R143): `align`
is what its marks lie off their places, behind a batten off those that the segment's own alignment gives. -/
def State.frameCopy (s : State) (c : Nat) (p : Nat × Nat) (h : W64) (part1Lost : Bool) (q : CourseAt) (own : Bool) (align : Int) :
    State :=
  let r := s.rchan c
  let (w, l) := r.tapeAt q
  s.setRchan c
    { r with
      framed := r.framed ++ [{ hdr := h, part1Lost := part1Lost, erased := false, wrap := w, lpos := l, bit := p.2, place := q }]
      pred := some (nextCourse p)
      prev := some p
      shift := if own then align else r.shift + align }

/-- Equaliser outputs of a segment, in order of travel, with the taps in use: what a detector run over the sample history sees
(R120, R124). -/
def RChan.outputs (r : RChan) (taps : List Rat) (g : HeardSeg) : List Rat :=
  let last := r.heard.head?.any (·.num == g.num) && (!r.inGuard || decide (0 < r.tail))
  equalise taps ((r.bitsOf g).reverse.map (·.y) ++ (if last then r.ahead else g.after).reverse)

/-- Equaliser outputs from a place of a segment on. -/
def RChan.outputsAt (r : RChan) (taps : List Rat) (n : Nat) (j : Int) (len : Nat) : List (Option Rat) :=
  match r.segNo n with
  | none => List.replicate len none
  | some g => cut (r.outputs taps g) (g.base + j) len

/-- Equaliser outputs of a course from bit k on, within one of its parts. -/
def RChan.outputsOf (r : RChan) (taps : List Rat) (p : CourseAt) (k len : Nat) : List (Option Rat) :=
  let (n, j, here) := p.spot k
  let a := min len here
  let (m, i, _) := p.spot (k + a)
  r.outputsAt taps n j a ++ (if a < len then r.outputsAt taps m i (len - a) else [])

/-- The rerun of R142 over a stretch of one segment: detection from the sample history, from two bits before the stretch to two behind
it, with the flags that the bits carry. -/
def State.rerunAt (s : State) (c n : Nat) (j : Int) (len : Nat) : List (Option (HeardBit × Bool)) :=
  let r := s.rchan c
  let zs := (r.outputsAt (s.taps c) n (j - 2) (len + 4)).map fun z => (z.getD 0, (0 : Rat))
  let bits := (bestOf (detRun s.target s.predictor detStart zs)).path.reverse
  (List.zip (r.look (s.defExt c) n (j - 2) (len + 4)) bits).map fun e => e.1.map fun x => ({ x.1 with bit := e.2 }, x.2)

/-- Part 1 as a rerun decides it (R142), its start moved by `d`; what of it lies behind a batten keeps its place there. -/
def State.rerun (s : State) (c : Nat) (q : CourseAt) (d : Int) : List (Option (HeardBit × Bool)) :=
  let e := min 938 (atomEnd q.l)
  ((s.rerunAt c q.seg q.off1 e).drop (2 + d).toNat).take e ++
    if e < 938 then ((s.rerunAt c (q.seg + 1) q.next1 (938 - e)).drop 2).take (938 - e) else []

/-- Header A from a rerun, with the course's start moved by `d`. -/
def State.rerunHeader (s : State) (c : Nat) (q : CourseAt) (d : Int) : Option W64 :=
  let l := ((s.rerun c q d).drop 80).take 66
  if l.length < 66 ∨ l.any (·.isNone) then none
  else
    let bits := l.map fun x => (x.map (·.1.bit)).getD false
    some (BitVec.ofNat 64 ((bits.take 32 ++ (bits.drop 33).take 32).foldl (fun n b => 2 * n + b.toNat) 0) ^^^ headerMask)

/-- The re-frame of R142 from an accepted second mark under header B. -/
def State.reframe (s : State) (c : Nat) (p : Nat × Nat) (q : CourseAt) (b : W64) (d : Int) : State :=
  let q := q.reframed d
  let m := takeMark (tryMarks 2 firstPattern (((s.rerun c q (-2)).drop 48).take 36)) 0 2 24 3
  let a := headerPasses (s.rerunHeader c q ((m.map (·.off)).getD 0))
  let ok := m.isSome || a == some b
  let s := s.bump F.RDC_CH_CNT1.SM_ALIGN 1 c
  let s := if ok then s.bump F.RDC_CH_CNT1.REFRAME_OK 1 c else s.bump F.RDC_CH_CNT1.REFRAME_FAIL 1 c
  s.frameCopy c p b (!ok) q (!q.whole) d

/-- The framing table of R141, from the two marks and the headers that pass. -/
def State.frameTable (s : State) (c : Nat) (p : Nat × Nat) (q : CourseAt) (m1 m2 : Option MarkCand) (a b : Option W64) : State :=
  match m1, m2, a, b with
  | some x, some y, some h, some h' =>
    if h = h' then s.frameCopy c p h false ((q.byFirst x.off).bySecond y.off) (!q.whole) y.off else s.eraseCopy c p false
  | some x, some y, some h, none => s.frameCopy c p h false ((q.byFirst x.off).bySecond y.off) (!q.whole) y.off
  | some x, none, some h, _ => s.frameCopy c p h false { q.byFirst x.off with off2 := q.off2 + x.off } false x.off
  | some _, some y, none, some h => s.reframe c p q h y.off
  | none, some y, _, some h => s.reframe c p q h y.off
  | some _, some _, none, none => s.eraseCopy c p false
  | _, _, _, _ => s.eraseCopy c p true

/-- A course searched at a place, its marks with at most 3 errors (R140, R141). -/
def State.frameCourse (s : State) (c : Nat) (p : Nat × Nat) : State :=
  let r := s.rchan c
  let ext := s.defExt c
  let q := courseAt p r.shift
  let m1 := r.firstMark ext q 8 3
  let a := m1.bind fun x => headerPasses (r.header ext (q.byFirst x.off) 80)
  let m2 := r.findSecond ext q m1 a.isSome
  let b := m2.bind fun y => headerPasses (r.header ext (q.bySecond y.off) 970)
  s.frameTable c p q m1 m2 a b

/-- Whether hunt accepts a course at a place (R144): a first mark with at most 1 error there, a second mark with at most 1 error
within ±2 bits of its implied place, and a header that passes. -/
def RChan.huntAccepts (r : RChan) (ext : Nat) (p : Nat × Nat) : Option (MarkCand × MarkCand) :=
  let q := courseAt p 0
  match r.firstMark ext q 0 1 with
  | none => none
  | some x => (r.secondMark ext q 0 2 1).bind fun y =>
    if (headerPasses (r.header ext q 80)).isSome || (headerPasses (r.header ext (q.bySecond y.off) 970)).isSome then some (x, y)
    else none

/-- The first course that hunt accepts, in order of travel (R144). -/
def RChan.hunted (r : RChan) (ext : Nat) : Option ((Nat × Nat) × MarkCand × MarkCand) :=
  r.heard.reverse.findSome? fun g =>
    (List.range (min 14441 (g.bits.length - g.base.toNat))).findSome? fun (j : Nat) =>
      if (g.start : Int) + g.base + j < r.huntAt then none
      else (r.huntAccepts ext (g.num, j)).map fun m => ((g.num, j), m)

/-- A course that hunt has accepted (R144): packing prediction restarts from it. -/
def State.frameHunted (s : State) (c : Nat) (p : Nat × Nat) (x y : MarkCand) : State :=
  let r := s.rchan c
  let ext := s.defExt c
  let q := courseAt p 0
  let s := (s.setRchan c { r with shift := 0 }).setFlag F.RDC_CH_STAT.HUNT false c
  s.frameTable c p q (some x) (some y) (headerPasses (r.header ext q 80)) (headerPasses (r.header ext (q.bySecond y.off) 970))

/-- Whether a predicted course's second header has been heard, or can be heard no more. -/
def RChan.courseDue (r : RChan) (p : Nat × Nat) : Bool :=
  let (n, j, _) := (courseAt p r.shift).spot (970 + 66 + 8)
  match r.heard with
  | [] => false
  | g :: _ => decide (n < g.num) || (n == g.num && ((r.inGuard && decide (r.tail = 0)) || decide (g.base + j ≤ g.bits.length)))

/-- COURSE_FRAME (R140 to R144): the next course searched, and its copy delivered or erased. A channel that a calibration has stopped
delivers erased copies (R149); in hunt nothing is delivered until a course is accepted.
DEDUCED: log entry 44. -/
def execCourseFrame (c : Chan) (adc : List Byte) (s : State) : Res :=
  if !s.chanOn c || !s.clocked then .next s
  else if (s.rchan c).calOff then
    match (s.rchan c).pred with
    | some p => .next (s.eraseCopy c p false)
    | none => .next s
  else if !s.dataSpeed then .next (s.hear c adc)
  else
    let s := s.hear c adc
    let r := s.rchan c
    if s.flag F.RDC_CH_STAT.HUNT c then
      match r.hunted (s.defExt c) with
      | none => .next s
      | some (p, x, y) => .next (s.frameHunted c p x y)
    else match r.pred with
      | none => .next s
      | some p => .next (if r.courseDue p then s.frameCourse c p else s)

/-! ## Detector passes and C1 (R121 to R125) -/

/-- The LLR of R122 from a soft output. -/
def State.llrOf (s : State) (soft : Rat) : Int :=
  max (-31) (min 31 (nearest (soft * s.fld F.RDC_ITER_CTL.LLR_SCALE / 16)))

/-- The places of the 9,216 codeword bits in a course: every word of both payload parts without its 33rd bit (R40, R86). -/
def codewordPlaces : List Nat :=
  (List.range 24).flatMap (fun w => (List.range 32).map fun i => 146 + 33 * w + i) ++
    (List.range 264).flatMap (fun w => (List.range 32).map fun i => 1036 + 33 * w + i)

/-- The bits of a copy as decided in the first pass, with their flags. -/
def RChan.copyBits (r : RChan) (ext : Nat) (p : CourseAt) : List (Option (HeardBit × Bool)) :=
  r.span ext p 0 938 ++ r.span ext p 938 8826

/-- Whether every bit of a copy has been heard. -/
def State.copyHeard (s : State) (c : Nat) (p : CourseAt) : Bool :=
  ((s.rchan c).copyBits (s.defExt c) p).all (·.isSome)

/-- Whether bits of a copy are still to come: its last segment has not ended, and its first is in the sample history. -/
def State.copyComing (s : State) (c : Nat) (p : CourseAt) : Bool :=
  let r := s.rchan c
  let there (n : Nat) : Bool := decide (r.nextNum ≤ n) || (r.segNo n).isSome
  let open_ (n : Nat) : Bool :=
    decide (r.nextNum ≤ n) || (n + 1 == r.nextNum && (!r.inGuard || decide (0 < r.tail)))
  there p.seg && open_ (p.spot 9763).1

/-- Whether every sample of a copy is still in the sample history (R125), which holds 24,576. -/
def State.copyHeld (s : State) (c : Nat) (p : CourseAt) : Bool :=
  let r := s.rchan c
  s.copyHeard c p && decide (r.count ≤ r.countAt p.seg p.off1 + 24576)

/-- The metric that C1's extrinsic output gives each bit of a course being 1 (R123), in the order of the course; the spec gives no
factor between LLRs and metrics, and the model takes the reverse of the scale of R122.
DESIGN CHOICE: log entry 109. -/
def State.priors (s : State) (h : W64) (ext : List Rat) : List Rat :=
  let k := (16 : Rat) / s.fld F.RDC_ITER_CTL.LLR_SCALE
  let l := List.zip codewordPlaces (List.zip ext (payloadBits h))
  (l.foldl (fun (a : Array Rat) e => a.setIfInBounds e.1 (if e.2.2 then -(k * e.2.1) else k * e.2.1))
    (Array.replicate 9764 (0 : Rat))).toList

/-- The equaliser outputs of the bits from `k` until `e` of a copy, which lie in one segment, and of the 96 bits behind them there
(R121, R124). -/
def State.copyOutputs (s : State) (c : Nat) (p : CourseAt) (k e : Nat) : List Rat × List Rat :=
  let r := s.rchan c
  let t := s.taps c
  let (n, j, _) := p.spot (e - 1)
  let m := min e (max k 938)
  (((if k < 938 then r.outputsOf t p k (m - k) else []) ++ r.outputsOf t p m (e - m)).map fun z => z.getD 0,
    (r.outputsAt t n (j + 1) 96).filterMap id)

/-- The soft outputs of those bits: the detector starts anew in each segment, whose bits do not follow those before the batten. -/
def State.copySofts (s : State) (c : Nat) (p : CourseAt) (priors : List Rat) (k e : Nat) : List Rat :=
  let (zs, after) := s.copyOutputs c p k e
  let pri := (priors.drop k).take (e - k)
  (softs s.target s.predictor detStart (List.zip zs pri ++ after.map fun z => (z, 0))).take (e - k)

/-- The descrambled LLRs that a detector pass hands to C1, under C1's extrinsic output of the pass before: flagged bits 0, part 1 zero
where it was lost (R85, R121 to R123, R142). -/
def State.passLlrs (s : State) (c : Nat) (f : Framed) (ext : List Rat) : List Int :=
  let pri := s.priors f.hdr ext
  let e := min 9764 (atomEnd f.place.l)
  let soft := (s.copySofts c f.place pri 0 e ++ if e < 9764 then s.copySofts c f.place pri e 9764 else []).toArray
  let flags := (((s.rchan c).copyBits (s.defExt c) f.place).map fun x => (x.map (·.2)).getD true).toArray
  (List.zip codewordPlaces (payloadBits f.hdr)).zipIdx.map fun e =>
    let k := e.1.1
    if flags.getD k true || (f.part1Lost && decide (e.2 < 768)) then 0
    else
      let v := s.llrOf (soft.getD k 0)
      if e.1.2 then -v else v

/-- Iterations of pass p (R124). -/
def State.passIters (s : State) (p : Nat) : Nat :=
  if p = 0 then max 1 (s.fld F.RDC_ITER_CTL.IT1) else if p = 1 then s.fld F.RDC_ITER_CTL.IT2 else s.fld F.RDC_ITER_CTL.IT3

/-- What FMT makes of a framed copy over at most `n` more passes, from pass `p` on, with `left` iterations (R96, R97, R124, R125):
before each pass the channel hears on, and a pass is made only while the copy is in the sample history. -/
def State.decodePasses : Nat → Nat → State → Nat → Framed → C1State → Nat → List Rat → List (List Byte) →
    State × Option (List Byte × Nat)
  | 0, _, s, _, _, _, _, _, _ => (s, none)
  | n + 1, p, s, c, f, d, left, ext, gaps =>
    let s := s.hear c (gaps.headD [])
    if !s.copyHeld c f.place then (s, none)
    else
      let llr := s.passLlrs c f ext
      let k := min (s.passIters p) left
      let (d, found) := c1Pass ((s.fld F.FMT_CODE_CTL.C1_SCALE : Rat) / 16) d k llr
      match found with
      | some r => (s, some r)
      | none => State.decodePasses n (p + 1) s c f d (left - k) (d.extrinsic llr) (gaps.drop 1)

/-- The passes of a framed copy (R124). -/
def State.decodeCopy (s : State) (c : Nat) (f : Framed) (gaps : List (List Byte)) : State × Option (List Byte × Nat) :=
  if f.erased then (s, none)
  else State.decodePasses (max 1 (s.fld F.RDC_ITER_CTL.PASSES)) 0 s c f C1State.start (s.fld F.FMT_CODE_CTL.C1_MAX_IT) [] gaps

/-- A copy handed to FMT (R97, R98, R105). -/
def State.copyTo (s : State) (c : Nat) (f : Framed) (found : Option (List Byte × Nat)) : State :=
  let k : Copy :=
    { chan := c, hdr := f.hdr, pass := found.isSome, corr := (found.map (·.2)).getD 0, data := (found.map (·.1)).getD [],
      order := s.fmt.nextOrder, wrap := f.wrap, lpos := f.lpos, bit := f.bit }
  let s := if k.pass then s else s.bump F.FMT_CODE_CNT0.C1_FAIL
  { s with fmt := { s.fmt with copies := s.fmt.copies ++ [k], nextOrder := s.fmt.nextOrder + 1 } }

/-- C1_DECODE (R96 to R98, R105, R121 to R125): the oldest framed copy of a channel, once all of it has been heard or the rest of it
can come no more; `gaps` gives the samples that the channel takes before each pass.
DEDUCED: log entry 95. -/
def execC1Decode (c : Chan) (gaps : List (List Byte)) (s : State) : Res := whileClocked s <|
  match (s.rchan c).framed with
  | [] => .next s
  | f :: _ =>
    if !f.erased && !s.copyHeard c f.place && s.copyComing c f.place && s.listens c then .next (s.hear c (gaps.headD []))
    else
      let (s, found) := s.decodeCopy c f gaps
      let s := s.setRchan c { s.rchan c with framed := (s.rchan c).framed.drop 1 }
      .next (s.copyTo c f found)

end Sys2Proof.Machine
end

