-- ==== Sys2Proof/Machine/Programs.lean ====
section
/-!
DEFINITION. The operations that the standard program set serves (R384), as what a work item changes and the completion entry it
ends with (R380): what the images do in between through engine commands is the commands' own effect.
-/
namespace Sys2Proof.Machine

/-! ## Ending a work item -/

/-- A work item ends: its completion entry is due (R380).
DESIGN CHOICE: log entry 50. -/
def State.endItem (s : State) (w : WorkItem) (status : W16) (result : Nat) : State :=
  ({ s with hst := { s.hst with
      waiting := s.hst.waiting ++ [(⟨w.fn, w.pair, w.cid, true, 0, status, 0, result % 2 ^ 32, none, s.nextSeq⟩ : Waiting)] } }).postAll

/-- A work item waits for the seal of a commit sequence number (R169, R384); of a WRITE_RECORD with its record. -/
def State.waitItem (s : State) (w : WorkItem) (seq result : Nat) (record : Option (Nat × Nat)) : State :=
  { s with hst := { s.hst with
      waiting := s.hst.waiting ++ [(⟨w.fn, w.pair, w.cid, false, seq, St.OK, 0, result % 2 ^ 32, record, 0⟩ : Waiting)] } }

/-- A work item ends where no rule states its status and result: both are free values.
DESIGN CHOICE: log entry 50. -/
def State.endOpen (s : State) (w : WorkItem) : State :=
  let v := Config.freeW64 s.freeCtr
  s.nextFree.endItem w (BitVec.ofNat 16 v.toNat) (v.toNat / 2 ^ 16)

/-- Whether a work item reaches the programs: its pair is enabled and its function active (R376), and HST has not completed it itself
(R378).
DEDUCED: log entry 36. -/
def State.served (s : State) (w : WorkItem) : Bool := s.fnActive w.fn && s.pairEn w.fn w.pair && (itemCheck w.bytes).isNone

/-- The opcodes that the standard program set serves (R384). -/
def standardOps : List Nat := [0x01, 0x02, 0x03, 0x04, 0x05, 0x06, 0x07, 0x41, 0x42, 0x81, 0x82]

/-- A work item given to the operation of one opcode (R384): an item of another standard opcode is not this operation's, and one of
any other opcode ends BAD_PARAM. -/
def State.serve (s : State) (w : WorkItem) (op : Nat) (t : State) : Res :=
  whileClocked s <|
  if !s.served w then .next s
  else if w.opcode = op then .next t
  else if standardOps.contains w.opcode then .next s
  else .next (s.endItem w St.BAD_PARAM 0)

/-! ## Streams -/

/-- A stream as the program set holds it. -/
def State.stream (s : State) (w : WorkItem) : Stream := s.hst.streams.get (fun _ => {}) w.stream.toNat

/-- The state with a stream replaced. -/
def State.setStream (s : State) (w : WorkItem) (x : Stream) : State :=
  { s with hst := { s.hst with streams := s.hst.streams.set (fun _ => {}) w.stream.toNat x } }

/-- IDENTIFY (R384). -/
def execIdentify (w : WorkItem) (s : State) : Res := s.serve w 0x01 (s.endItem w St.OK 0)

/-- A stream opened over what it was before: an open segment of other parameters is finished first, since a header holds one class, key
and IV base (R75).
DESIGN CHOICE: log entry 93. -/
def State.openOver (s : State) (id : Nat) (x : Stream) : State × Option W16 :=
  let old := s.streamOf id
  if old.orig = 0 ∨ (old.cls = x.cls ∧ old.tkid = x.tkid ∧ old.ivBase = x.ivBase) then (s, none) else s.endSegment id

/-- OPEN_STREAM (R354, R384); an access point size outside the table's range is refused, and so is the reserved stream class 0b11.
DEDUCED: log entry 36; DEDUCED: log entry 51. -/
def execOpenStream (w : WorkItem) (s : State) : Res :=
  let size := natAt w.params 20 4
  let cls := natAt w.params 16 4 % 4
  let tkid := BitVec.ofNat 64 (natAt w.params 8 8)
  let x : Stream :=
    { s.stream w with
      isOpen := true, ivBase := BitVec.ofNat 64 (natAt w.params 0 8), tkid := tkid, cls := BitVec.ofNat 32 cls
      apSize := BitVec.ofNat 32 size, written := 0, plain := cls == 0 && tkid == 0 && s.unitLimit.isNone, runNext := true }
  s.serve w 0x02 <|
    if size < 65536 ∨ 4194304 < size ∨ cls = 3 then s.endItem w St.BAD_PARAM 0
    else match s.openOver w.stream.toNat x with
      | (s, none) =>
        let y := s.stream w
        let x := { x with segSeq := y.segSeq, body := y.body, orig := y.orig, firstAt := y.firstAt, began := y.began, touched := y.touched }
        (s.setStream w x).endItem w St.OK 0
      | (_, some e) => (s.failGroup e).endItem w e 0

/-- CLOSE_STREAM (R384): the result is the records written. -/
def execCloseStream (w : WorkItem) (s : State) : Res :=
  let x := s.stream w
  s.serve w 0x03 (if !x.isOpen then s.endOpen w else (s.setStream w { x with isOpen := false }).endItem w St.OK x.written)

/-! ## Commit groups -/

/-- The streams of the program set that are open. -/
def State.openStreams (s : State) : Bool := s.hst.streams.any fun e => e.2.isOpen

/-- The open commit group closed for a COMMIT, the open segments finished first (R74, R169, R337); a COMMIT while no stream is open
ends the write session (R58).
DESIGN CHOICE: log entry 93. -/
def State.commitGroup (s : State) : State × Option W16 :=
  match s.endSegments (!s.openStreams) (s.hst.streams.map fun e => e.1) with
  | (s, some e) => (s, some e)
  | (s, none) => (s.closeGroup (!s.openStreams) (!s.openStreams), none)

/-- What the images picked for the commits of closed groups, given to those that have nothing yet, the oldest first. -/
def givePlans : List CommitPlan → List ClosedGroup → List ClosedGroup
  | p :: ps, g :: gs => if g.plan.isNone then { g with plan := some p } :: givePlans ps gs else g :: givePlans (p :: ps) gs
  | _, gs => gs

/-- A command descriptor without FENCE (R316). -/
def descriptor (code arg tag : Nat) (a b : W64) (c d : Nat) : List Byte :=
  leBytes 1 code ++ [0] ++ leBytes 2 arg ++ leBytes 4 tag ++ leBytes 8 a.toNat ++ leBytes 8 b.toNat ++ leBytes 4 c ++ leBytes 4 d

/-- The regions of a group that closes in a team (R409, R423): the first, and their number. -/
def State.groupRegions (s : State) (t : Nat) (g : ClosedGroup) : Nat × Nat :=
  (recFirst g.record / 16 - s.tw t 3 % 2 ^ 32, recLast g.record / 16 + 1 - recFirst g.record / 16)

/-- The actions of the transaction that commits a group (R337): COMMIT_SEQ, the stream table bank, the SEAL, a LEAK_COMMIT for each team
slot, and the notice to HOSTD, which here holds the group's commit sequence number.
DESIGN CHOICE: log entry 107. -/
def State.commitActions (s : State) (g : ClosedGroup) (p : CommitPlan) : List Staged :=
  [.tset 0 (BitVec.ofNat 64 g.seq), .tset 4 (BitVec.ofNat 64 (1 - (s.txReg 4).toNat % 2)),
    .issue 2 (descriptor 3 0 0 p.record 0 (recLast g.record) 0) p.hostQ.val] ++
  (([0, 1].filter s.slotActive).map fun t =>
    let (r, n) := s.groupRegions t g
    .issue 3 (descriptor 3 t 0 0 0 r n) p.leakQ.val) ++
  [.qput p.hostQ.val (BitVec.ofNat 128 (leNat ([0x40] ++ leBytes 8 g.seq)))]

/-- The stream table after a group brought into a bank by earlier transactions (R328, R337). -/
def State.bankTable (s : State) (bank : Nat) (l : List (List Nat)) : State :=
  let base := if bank = 0 then 0x100 else 0x5000
  s.each l.zipIdx fun s e => s.each e.1.zipIdx fun s w => s.tset (base + 8 * e.2 + w.2) (BitVec.ofNat 64 w.1)

/-- TAPE commits the oldest closed group once the group before it is sealed, whose CRC its record holds (R63), and a transaction of these
actions can commit (R331, R337): the record goes to its buffer, the stream table to the bank that is not current, then the
actions.
DESIGN CHOICE: log entry 107. -/
def State.commitNext (s : State) : State :=
  match s.hst.closed with
  | [] => s
  | g :: rest => match g.plan with
    | none => s
    | some p =>
      let acts := s.commitActions g p
      if g.committed || !s.imageOk || !s.commitRoom p.core acts then s
      else
        let s := if (s.checkUse (taHandle p.record) (taOff p.record) 1024 1 (some Owner.cores)).isNone then
            s.taWrite p.record (bytesAt g.record 0 1024) false
          else s
        let s := s.bankTable (1 - (s.txReg 4).toNat % 2) g.table
        let s := { s with hst := { s.hst with
            closed := { g with committed := true } :: rest
            sealing := s.hst.sealing ++ [(g.seq, 1 + ([0, 1].filter s.slotActive).length)] } }
        ((s.actions p.core acts).markOverlap p.core (tsets acts)).bump F.CORE_TXCNT.COMMITS

/-- COMMIT (R169, R337, R339, R384): the group is closed, and committed by the transaction of R337; the item completes on its seal, with
the group's commit sequence number. -/
def execCommit (w : WorkItem) (plans : List CommitPlan) (s : State) : Res :=
  s.serve w 0x04 <| match s.commitGroup with
    | (s, none) =>
      let q := s.openGroup - 1
      let s := s.waitItem w q q none
      { s with hst := { s.hst with closed := givePlans plans s.hst.closed } }.commitNext
    | (_, some e) => (s.failGroup e).endItem w e 0

/-- After a SEAL has completed OK, TAPE's later transaction (R337, R425): SEAL_CRC, CUM_CRC and NEXT_YEALM, and for a team member the
commit points and stripes that it has sealed. -/
def State.sealUpdate (s : State) (q : SealRec) : State :=
  if !s.imageOk then s
  else
    let s := ((s.tset 1 (BitVec.ofNat 64 q.crc.toNat)).tset 2 (BitVec.ofNat 64 (natAt q.record 28 4))).tset 3
      (BitVec.ofNat 64 (nextFirst s.fmt.ridgeProtection false q.last))
    match (if q.flags.testBit 0 then s.unitTeam else none) with
    | none => s
    | some t =>
      let w := 0x10000 + 0x8000 * t
      (s.tset (w + 2) (BitVec.ofNat 64 (natAt q.record 752 8))).tset (w + 3)
        (BitVec.ofNat 64 (s.tw t 3 % 2 ^ 32 + 2 ^ 32 * natAt q.record 760 4))

/-- After a LEAK_COMMIT has completed OK, TAPE's next transaction: the new LOW and leak window go to the record (R425). -/
def State.leakUpdate (s : State) (t : Nat) : State :=
  if !s.imageOk ∨ 2 ≤ t then s
  else
    let w := 0x10000 + 0x8000 * t
    let map := s.leakMap t
    let s := s.tset (w + 4) (BitVec.ofNat 64 (s.tw t 4 / 2 ^ 32 * 2 ^ 32 + s.leakLow t))
    s.each (List.range 16) fun s k => s.tset (w + 0x40 + k) (BitVec.ofNat 64 (map / 2 ^ (64 * k)))

/-- The work items of a group end: with OK once its SEAL and LEAK_COMMITs have completed so (R169, R337, R425), else with the status.
-/
def State.groupEnds (s : State) (seq : Nat) (st : W16) : State :=
  let end1 (w : Waiting) : Waiting :=
    if w.seq ≠ seq ∨ w.due then w
    else if st = St.OK then { w with due := true, order := s.nextSeq }
    else { w with due := true, order := s.nextSeq, status := st, result := 0 }
  { s with hst := { s.hst with
      waiting := s.hst.waiting.map end1
      sealing := s.hst.sealing.filter fun (e : Nat × Nat) => e.1 != seq } }

/-- The status in a completion item (R327). -/
def itemStatus (i : W128) : W16 := i.extractLsb' 32 16

/-- The program set gets a completion (R337, R425): that of a group's SEAL or LEAK_COMMIT brings the group's work items nearer to their
end, and lets the next group be committed. -/
def State.gets (s : State) (h : Held) : State :=
  let c := h.cmd
  let mine := decide (dCode c.desc = 3) && (c.target == 2 || c.target == 3)
  match (if mine then s.hst.sealing.lookup c.txSeq else none) with
  | none => s
  | some n =>
    if itemStatus h.item ≠ St.OK then s.groupEnds c.txSeq (itemStatus h.item)
    else
      let s := if c.target = 3 then s.leakUpdate (dArg c.desc)
        else match s.fmt.chain.find? fun q => q.seq == c.txSeq with
          | some q => s.sealUpdate q
          | none => s
      if n ≤ 1 then s.groupEnds c.txSeq St.OK
      else { s with hst := { s.hst with sealing := s.hst.sealing.map fun (e : Nat × Nat) => if e.1 = c.txSeq then (e.1, n - 1) else e } }

/-- COMPLETION_PUT (R322, R327): the engine puts a held completion item once its queue is enabled and has room; the buffers its
command took return to the stream cores with it. An item whose queue has no room stays held. Work items that the completion closes
end after it (R337). -/
def execCompletionPut (i : Nat) (s : State) : Res :=
  whileClocked s <| match s.held[i]? with
  | some h =>
    let t := s.putHeld h
    .next (if t.held.contains h then t else ((t.gets h).commitNext).postAll)
  | none => .next s

/-- The record that WRITE_RECORD leaves with the program set (R72, R73, R76): in a record unit, or in its stream's segments.
DESIGN CHOICE: log entry 52. -/
def State.keepRecord (s : State) (w : WorkItem) : State × Option W16 :=
  let x := s.stream w
  let id := w.stream.toNat
  let data := bytesAt w.data 0 w.length.toNat
  let s := s.setStream w { x with nextSeq := w.seq.toNat + 1, written := x.written + 1 }
  let old := s.hst.records.filter fun (r : RecordInfo) => !(r.stream == w.stream && r.seq == w.seq)
  let s := { s with hst := { s.hst with records := old ++ [(⟨w.stream, w.seq, none, w.length.toNat⟩ : RecordInfo)] } }
  if x.plain then (s.placeRecord w.stream w.seq.toNat data, none) else s.segmentRecord id w.seq.toNat data w.bodies

/-- Whether a stream's tenant key is at hand, or none is needed (R76). -/
def State.keyed (s : State) (x : Stream) : Bool := x.tkid == 0 || (s.keyFor x.tkid false).isSome

/-- Whether the engines that a stream's records pass are stopped, so that their commands end NOT_READY (R299, R339). -/
def State.engineOff (s : State) (x : Stream) : Bool :=
  (x.cls.toNat % 4 != 0 && !s.engineOn 0) || (x.tkid != 0 && !s.engineOn 1)

/-- WRITE_RECORD (R336, R384): the record's bytes are fetched and compared with the item's CRC-32C, unless the device computes it;
the item completes with the COMMIT of its group.
DESIGN CHOICE: log entry 91. -/
def execWriteRecord (w : WorkItem) (s : State) : Res :=
  s.serve w 0x41 <|
    if !(s.stream w).isOpen then s.endOpen w
    else if !s.dmaReady w.fn ∧ w.length ≠ 0 then s.endItem w St.NOT_READY 0
    else if w.length ≠ 0 ∧ !s.flag F.HST_FN.CRC_DEV w.fn ∧ crc32c (bytesAt w.data 0 w.length.toNat) ≠ w.crc then
      s.endItem w St.CRC_FAIL 0
    else if !s.keyed (s.stream w) then s.endItem w St.KEY_EMPTY 0
    else if s.engineOff (s.stream w) then (s.failGroup St.NOT_READY).endItem w St.NOT_READY 0
    else match s.keepRecord w with
      | (s, none) => s.waitItem w s.openGroup w.length.toNat (some (w.stream.toNat, w.seq.toNat))
      | (_, some e) => (s.failGroup e).endItem w e 0

/-- The yealm of a record (R64, R70, R384): that of a record written since the mount, or of the entry of the index with the greatest
first sequence that covers it. An entry of an index delta names the unit of its first record only; reading on from there finds the
others.
DESIGN CHOICE: log entry 52. -/
def State.findRecord (s : State) (w : WorkItem) : Option Nat :=
  match s.hst.records.find? fun r => r.stream == w.stream && r.seq == w.seq with
  | some r => r.yealm
  | none =>
    let l := (s.hst.index ++ s.hst.group.index).filter fun e =>
      e.stream == w.stream && decide (e.first ≤ w.seq.toNat) && decide (w.seq.toNat ≤ e.last)
    match l with
    | [] => none
    | e :: es => some (es.foldl (fun (m : IndexEntry) x => if m.first ≤ x.first then x else m) e).yealm

/-- LOCATE (R384). -/
def execLocate (w : WorkItem) (s : State) : Res :=
  s.serve w 0x07 <| match s.findRecord w with
    | some y => s.endItem w St.OK y
    | none => s.endOpen w

/-- Data moved to the host buffer of a work item: as much of it as the buffer's length takes (R382). -/
def State.toHost (s : State) (w : WorkItem) (l : List Byte) : State :=
  s.hostWrites w.fn w.addr.toNat (l.take w.length.toNat)

/-- READ_RECORD (R14, R73, R76, R335, R384): the record is found in the unit stream that the tape gives, its units deciphered and
decompressed, and its bytes go to the host buffer once their CRC-32C compares. Where the tape gives no such record, no rule states
the outcome.
DESIGN CHOICE: log entry 91. -/
def execReadRecord (w : WorkItem) (s : State) : Res :=
  let l := w.tape.flatten
  s.serve w 0x81 <| match s.readUnits w.stream.toNat w.seq.toNat (l.length / 32 + w.tape.length + 1) {} l (w.tape.map List.length) with
    | .error e => s.endItem w e 0
    | .ok none => s.endOpen w
    | .ok (some (b, crc)) =>
      if !s.dmaReady w.fn then s.endItem w St.NOT_READY 0
      else if (crc32c b).toNat ≠ crc then s.endItem w St.CRC_FAIL 0
      else (s.toHost w b).endItem w St.OK b.length

/-- READ_LOG (R384, R451): the boot journal or the sampler log; a parameter that names neither is refused.
DEDUCED: log entry 51. -/
def execReadLog (w : WorkItem) (s : State) : Res :=
  let go (l : List Byte) : State :=
    if !s.dmaReady w.fn then s.endItem w St.NOT_READY 0
    else (s.toHost w l).endItem w St.OK (min w.length.toNat l.length)
  s.serve w 0x82 <| match natAt w.params 0 4 with
    | 0 => go (s.aonBytes 0 0x1000)
    | 1 => go (s.aonBytes 0x8000 0x8000)
    | _ => s.endItem w St.BAD_PARAM 0

/-- IMPORT_KEY (R359, R360, R384): the wrapped blob goes to the slot by the checks of R360. -/
def execImportKey (w : WorkItem) (s : State) : Res :=
  let slot := natAt w.params 0 4
  let n := w.length.toNat
  s.serve w 0x42 <|
    if !s.dmaReady w.fn then s.endItem w St.NOT_READY 0
    else if w.crc ≠ crc32c (bytesAt w.data 0 n) ∧ !s.flag F.HST_FN.CRC_DEV w.fn then s.endItem w St.CRC_FAIL 0
    else if !importShapeOk slot n then s.endItem w St.BAD_PARAM 0
    else
      let (s, st) := s.importKey slot (bytesAt w.data 0 n)
      s.endItem w st 0

/-! ## The cartridge (R65, R66, R340) -/

/-- MOUNT (R65 to R71, R340, R384); one served while S6 or S7 runs uses the scout configuration (R146, R467).
DEDUCED: log entry 53. -/
def execMount (w : WorkItem) (f : TapeFind) (s : State) : Res :=
  s.serve w 0x05 (((if s.afeHeld then s.enterScout else s).mountTape f).endItem w St.OK 0)

/-- What leaves with a cartridge: what FMT and the program set hold of it. -/
def State.dismount (s : State) : State :=
  { s with
    fmt := { s.fmt with chain := [], copies := [], decoded := [], waiting := [], index := (0, 0, 0) }
    wrc := { s.wrc with placed := false, resume := [] }
    hst := { s.hst with mounted := false, records := [], group := {}, closed := [], sealing := [], index := [], quadNext := quadBase + 1 } }

/-- UNLOAD (R71, R384): before the cartridge leaves, the locator is written where a valid seal stands. -/
def execUnload (w : WorkItem) (s : State) : Res :=
  let t := match s.fmt.chain.getLast? with
    | some r => if s.hst.mounted then s.emit (.cartridgeMemory (s.locator r)) else s
    | none => s
  s.serve w 0x06 (t.dismount.endItem w St.OK 0)

end Sys2Proof.Machine
end

