-- ==== Sys2Proof/Machine/System.lean ====
section
/-!
DEFINITION. WAIT and events, PWRHINT, and the system instructions (R300 to R302, R306, R307).
-/
namespace Sys2Proof.Machine

/-- The edge bits of EVP (R300). -/
def edgeMask : W64 := 0x30F
/-- The bits that EVP and evm have (R300). -/
def eventMask : W64 := 0x7FF

/-- WAIT returns (R301): rd = EVP AND evm, the edge bits in rd cleared, Q 1 if any bit was set. -/
def State.waitReturn (s : State) (n : Nat) (rd : Rf) : State :=
  let c := s.core n
  let v := s.evp c &&& c.evm
  s.setCore n ({ (c.setG rd v false) with evEdge := c.evEdge &&& ~~~(v &&& edgeMask), fq := v != 0, stall := .none })

/-- WAIT (R301): it returns at once on a masked event or a timeout of 0; else the core waits. -/
def execWait (n : CoreId) (rd ra rb : Rf) (s : State) : Res :=
  laruf n s fun c =>
    if rb ≠ 0 then illegal
    else if c.gm ra then poisoned
    else if s.evp c &&& c.evm ≠ 0 ∨ c.gv ra = 0 then .done (s.waitReturn n rd)
    else .stay (s.setCore n { c with stall := .wait rd (c.gv ra == 0xFFFFFFFFFFFFFFFF) })

/-- PWRHINT (R302): the idle level from imm14; rd and ra must be 0, levels above 2 are ILLEGAL. -/
def execPwrhint (n : CoreId) (rd ra : Rf) (sub : BitVec 2) (imm : BitVec 14) (s : State) : Res :=
  laruf n s fun c =>
    if rd ≠ 0 ∨ ra ≠ 0 ∨ sub ≠ 0 ∨ 2 < imm.toNat then illegal else coreDone n s { c with level := imm.toNat }

/-- NOP (R306); the word is 0x7C00_0000, so every field is zero. -/
def execNop (n : CoreId) (rd ra rb : Rf) (s : State) : Res :=
  laruf n s fun _ => if rd ≠ 0 ∨ ra ≠ 0 ∨ rb ≠ 0 then illegal else .done s

/-- HALT (R306): the core enters halted; with a stop requested it enters stopped (R312). A transaction ends as at a stop. -/
def execHalt (n : CoreId) (rd ra rb : Rf) (s : State) : Res :=
  laruf n s fun c =>
    if rd ≠ 0 ∨ ra ≠ 0 ∨ rb ≠ 0 then illegal
    else if c.stopReq then .stay (s.coreStopped n)
    else .stay ((s.setCore n { c.endTx 5 with run := .halted }).lockCheck)

/-- A system register as MFS reads it (R307); CYCLE, and the count left in an armed TIMER, depend on time the model does not
hold and are free values (DESIGN CHOICE, log entry 23). None for an unlisted number. -/
def State.sysReg (s : State) (n : Nat) (c : Core) (num : Nat) : Option W64 :=
  let free := Config.freeW64 s.freeCtr
  match num with
  | 0 => some (BitVec.ofNat 64 c.pc)
  | 1 => some c.flagsWord
  | 2 => some c.txsWord
  | 3 => some c.evm
  | 4 => some (BitVec.ofNat 64 n)
  | 5 => some free
  | 6 => some (s.evp c)
  | 7 => some (if c.timer = 0 then 0 else BitVec.ofNat 64 (free.toNat % c.timer.toNat + 1))
  | 8 => some (BitVec.ofNat 64 c.fcode)
  | 9 => some (BitVec.ofNat 64 c.fpc)
  | 10 => some c.faddr
  | 11 => some (c.fstat.zeroExtend 64)
  | 12 => some (c.qwatch.get (fun _ => 0) 0)
  | 13 => some (c.qwatch.get (fun _ => 0) 1)
  | 14 => some (c.qwatch.get (fun _ => 0) 2)
  | 15 => some (c.qwatch.get (fun _ => 0) 3)
  | 16 => some (BitVec.ofNat 64 c.loops.length)
  | _ => none

/-- MFS (R306): rd = system register number ra. -/
def execMfs (n : CoreId) (rd ra rb : Rf) (s : State) : Res :=
  laruf n s fun c =>
    match (if rb = 0 then s.sysReg n c ra.toNat else none) with
    | none => illegal
    | some v => coreDone n (if ra.toNat = 5 ∨ ra.toNat = 7 then s.nextFree else s) (c.setG rd v false)

/-- A write of a system register (R307); none for an RO or unlisted number. -/
def Core.putSys (c : Core) (num : Nat) (v : W64) (mark : Bool) : Option Core :=
  match num with
  | 1 => some (c.putFlags v mark)
  | 3 => some { c with evm := v &&& eventMask }
  | 7 => some { c with timer := v }
  | 12 => some { c with qwatch := c.qwatch.set (fun _ => 0) 0 (v &&& 0x81FF) }
  | 13 => some { c with qwatch := c.qwatch.set (fun _ => 0) 1 (v &&& 0x81FF) }
  | 14 => some { c with qwatch := c.qwatch.set (fun _ => 0) 2 (v &&& 0x81FF) }
  | 15 => some { c with qwatch := c.qwatch.set (fun _ => 0) 3 (v &&& 0x81FF) }
  | _ => none

/-- MTS (R306): system register number rd = ra; a marked value to evm, TIMER or QWATCHn raises POISON (R282). -/
def execMts (n : CoreId) (rd ra rb : Rf) (s : State) : Res :=
  laruf n s fun c =>
    match (if rb = 0 then c.putSys rd.toNat (c.gv ra) (c.gm ra) else none) with
    | none => illegal
    | some c' => if c.gm ra ∧ rd.toNat ≠ 1 then poisoned else coreDone n s c'

/-- SIG (R306): SIGNAL in each core whose bit of ra[15:0] is set. -/
def execSig (n : CoreId) (rd ra rb : Rf) (s : State) : Res :=
  laruf n s fun c =>
    if rd ≠ 0 ∨ rb ≠ 0 then illegal
    else .done (s.each ((List.range 16).filter fun k => (c.gv ra).getLsbD k) fun s k => s.signal k)

/-- TRAP (R306): the TRAP exception with code rb. -/
def execTrap (n : CoreId) (rd ra rb : Rf) (s : State) : Res :=
  laruf n s fun _ =>
    if rd ≠ 0 ∨ ra ≠ 0 then illegal else .raise Exc.TRAP (some (rb.zeroExtend 64)) 0

/-- ERET (R306): clears H and continues at ra. -/
def execEret (n : CoreId) (rd ra rb : Rf) (s : State) : Res :=
  laruf n s fun c =>
    if rd ≠ 0 ∨ rb ≠ 0 ∨ !c.fh then illegal
    else if c.gm ra then poisoned
    else if (c.gv ra).toNat % 4 ≠ 0 then .raise Exc.ALIGN (some (c.gv ra)) 0
    else .goto (s.setCore n { c with fh := false }) (c.gv ra).toNat

/-- PCHK (R306): rd = 1 if g register ra is marked, unmarked itself. -/
def execPchk (n : CoreId) (rd ra rb : Rf) (s : State) : Res :=
  laruf n s fun c =>
    if rb ≠ 0 then illegal else coreDone n s (c.setG rd (if c.gm ra then 1 else 0) false)

/-- PCHKW (R306): rd = 1 if w register ra is marked, unmarked itself. -/
def execPchkw (n : CoreId) (rd ra rb : Rf) (s : State) : Res :=
  laruf n s fun c =>
    if 15 < ra.toNat ∨ rb ≠ 0 then illegal else coreDone n s (c.setG rd (if c.wm ra then 1 else 0) false)

end Sys2Proof.Machine
end

