-- ==== Sys2Proof/Machine/CoreCtl.lean ====
section
/-!
DEFINITION. Starting, stopping and loading cores (R311 to R315).
-/
namespace Sys2Proof.Machine

/-- Whether a load in progress names a core. -/
def State.loadNames (s : State) (n : Nat) : Bool := s.flag F.CORE_LOAD_STAT.BUSY && s.load.targets.contains n

/-- A core as a start leaves it (R311). -/
def Core.started (c : Core) : Core :=
  { c with
    run := .running, g := [], w := [], pc := c.entry
    fz := false, fn := false, fc := false, fv := false, fq := false, fh := false, fm := false
    evm := 0, evEdge := 0, timer := 0, qwatch := [], loops := [], level := 0
    staged := [], depth := 0, aborted := false, cause := 0, overlap := false, stopReq := false, graceOver := false, stall := .none }

/-- A write of 1 to RUN of a core (R311): no start request while it runs; refused without a verified image or while a load
names it. -/
def State.coreRunOn (s : State) (n : Nat) : State :=
  let c := s.core n
  if c.run = .running then s
  else if c.imgOk && !s.loadNames n then (s.setCore n c.started).setFlag F.CORE_CTL.RUN true n
  else s.raise F.CORE_STAT.START_REFUSED n

/-- A core that runs no longer: a running one enters stopped as R312 says, a halted or faulted one at once. -/
def State.coreToStopped (s : State) (n : Nat) : State :=
  match (s.core n).run with
  | .stopped => s
  | .running => s.coreStopped n
  | _ => s.setCore n { s.core n with run := .stopped }

/-- A write of 0 to RUN of a core (R312): a stop request; with GRACE 0, or on a halted or faulted core, a stop at once. -/
def State.coreRunOff (s : State) (n : Nat) : State :=
  let s := s.setFlag F.CORE_CTL.RUN false n
  if (s.core n).run = .running then
    let s := s.setCore n { s.core n with stopReq := true }
    if s.fld F.CORE_CFG.GRACE = 0 then s.coreStopped n else s
  else s.coreToStopped n

/-- Whether a core is within an instruction that the end of a grace lets complete: an LDT awaiting its data, or a TXC room (R312). -/
def Stall.completes : Stall → Bool
  | .load _ _ _ _ _ _ => true
  | .commit _ => true
  | _ => false

/-- CORE_GRACE_EXPIRY (R312): a running core whose stop was requested stops at its first instruction boundary after the grace: at once
between two instructions and in a WAIT or a blocking ISSUE, else when the instruction it is in completes. -/
def execCoreGraceExpiry (n : CoreId) (s : State) : Res :=
  let c := s.core n
  whileClocked s <| if c.run = .running ∧ c.stopReq then
    .next (if c.stall.completes then s.setCore n { c with graceOver := true } else s.coreStopped n)
  else .next s

/-! ## Loading (R313, R314) -/

/-- The targets that `CORE_LOAD_CTL` names. -/
def State.loadTargets (s : State) : List Nat := (List.range 16).filter fun n => (s.fld F.CORE_LOAD_CTL.TARGETS).testBit n

/-- A load ends with a result. -/
def State.loadEnd (s : State) (r : Nat) : State := (s.setFlag F.CORE_LOAD_STAT.BUSY false).setFld F.CORE_LOAD_STAT.RESULT r

/-- The checks of a load that come before any copy: the buffer by checks 1 to 3 of R264 (RESULT 7), then the targets stopped
(RESULT 6). -/
def State.loadRefusal (s : State) : Option Nat :=
  let h := BitVec.ofNat 32 (s.fld F.CORE_LOAD_H.HANDLE)
  if (s.checkRange h 0 (s.fld F.CORE_LOAD_L.LENGTH)).isSome then some 7
  else if s.loadTargets.any fun n => (s.core n).run != .stopped then some 6
  else none

/-- A write of 1 to GO (R314): RESULT 8 while BUSY; no target ends at once with RESULT 0; else the load begins, with IMG_OK of
every target cleared. -/
def State.loadGo (s : State) : State :=
  if s.flag F.CORE_LOAD_STAT.BUSY then s.setFld F.CORE_LOAD_STAT.RESULT 8
  else if s.loadTargets.isEmpty then s.loadEnd 0
  else match s.loadRefusal with
    | some r => s.loadEnd r
    | none =>
      let ts := s.loadTargets
      let l : Load := { handle := BitVec.ofNat 32 (s.fld F.CORE_LOAD_H.HANDLE), length := s.fld F.CORE_LOAD_L.LENGTH, targets := ts }
      let s := { s with load := l }.each ts fun s n => s.setCore n { s.core n with imgOk := false }
      s.setFlag F.CORE_LOAD_STAT.BUSY true

/-- Code length of an image. -/
def imgC (b : List Byte) : Nat := natAt b 32 4
/-- Data length of an image. -/
def imgD (b : List Byte) : Nat := natAt b 36 4

/-- Whether an image's header is valid (R313), lengths and addresses apart. -/
def imgHeaderOk (b : List Byte) : Bool :=
  natAt b 0 4 == 0x4655524C && natAt b 4 2 == 1 && decide (natAt b 6 2 < 2) && natAt b 50 14 == 0

/-- Whether an image's lengths and addresses are valid (R313).
DEDUCED: log entry 80. -/
def imgLengthsOk (b : List Byte) : Bool :=
  let c := imgC b
  let d := imgD b
  let e := natAt b 24 4
  let h := natAt b 28 4
  let a := natAt b 40 4
  b.length == 1412 + c + d && c % 4 == 0 && decide (4 ≤ c) && decide (c ≤ 65536) && decide (d ≤ 65536) &&
    e % 4 == 0 && decide (e < c) && (if natAt b 6 2 = 1 then h % 4 == 0 && decide (h < c) else h == 0) &&
    a % 8 == 0 && decide (a + d ≤ 65536) && natAt b (128 + c + d) 2 == 1280 && natAt b (130 + c + d) 2 == 0

/-- The bytes of an image that its digest covers (R313). -/
def imgHashed (b : List Byte) : List Byte := bytesAt b 0 64 ++ bytesAt b 128 (imgC b + imgD b)

/-- RESULT of an image whose header and lengths are valid (R314): digest, signature, program floor.
DEDUCED: log entry 80. -/
def State.imgResult (s : State) (b : List Byte) : Nat :=
  let n := imgC b + imgD b
  if shake256 (imgHashed b) 64 ≠ bytesAt b 64 64 then 3
  else match s.boot.signerKeys[natAt b 48 2]? with
    | none => 4
    | some k =>
      if !Config.falconVerify k (bytesAt b 0 (128 + n)) (bytesAt b (132 + n) 1280) then 4
      else if natAt b 20 4 < s.fld F.BOOT_PFLOOR.PFLOOR then 5
      else 0

/-- Code and data copied into a core, with the header's fields that a start reads. -/
def Core.copied (c : Core) (b : List Byte) (ok : Bool) : Core :=
  let im := c.im.store (fun _ => (0 : Byte)) 0 (bytesAt b 128 (imgC b))
  { (c.ldmStore (natAt b 40 4) (bytesAt b (128 + imgC b) (imgD b)) false) with
    im := im, imgOk := ok
    imageId := BitVec.ofNat 64 (natAt b 8 8), imageVer := BitVec.ofNat 32 (natAt b 16 4)
    securityVer := BitVec.ofNat 32 (natAt b 20 4), entry := natAt b 24 4
    handler := if natAt b 6 2 = 1 then some (natAt b 28 4) else none
    codeLen := imgC b, engineMask := BitVec.ofNat 32 (natAt b 44 4) }

/-- PROGRAM_LOAD_DONE (R314): the load in progress ends, of the buffer, length and targets that GO found. A buffer refused or poisoned ends it with RESULT 7; code and data are
copied whatever the digest says, and IMG_OK is set only with RESULT 0. -/
def execProgramLoadDone (s : State) : Res :=
  if !s.flag F.CORE_LOAD_STAT.BUSY || !s.clocked then .next s
  else
    let h := s.load.handle
    let len := s.load.length
    let ts := s.load.targets
    if (s.checkRange h 0 len).isSome then .next (s.loadEnd 7)
    else
      let (s, b, m) := s.bufRead h 0 len
      if m then .next (s.loadEnd 7)
      else if len < 1416 then .next (s.loadEnd 2)
      else if !imgHeaderOk b then .next (s.loadEnd 1)
      else if !imgLengthsOk b then .next (s.loadEnd 2)
      else
        let r := s.imgResult b
        let s := s.each ts fun s n => s.setCore n ((s.core n).copied b (r == 0))
        .next (s.loadEnd r)

/-! ## The debug window (R315) -/

/-- The core and space that `CORE_WSEL` selects. -/
def State.windowCore (s : State) : Nat := s.fld F.CORE_WSEL.CORE

/-- A write through the debug window: IM takes none; LDM of a running core takes none and sets STOPPED_ONLY (R315). -/
def State.windowWrite (s : State) (off : Nat) (v : W32) : State :=
  let n := s.windowCore
  if s.flag F.CORE_WSEL.SPACE then s
  else if (s.core n).run = .running then s.raise F.CORE_STAT.STOPPED_ONLY n
  else s.setCore n ((s.core n).ldmStore off (leBytes 4 v.toNat) false)

/-- A read through the debug window. -/
def State.windowRead (s : State) (off : Nat) : W32 :=
  let c := s.core s.windowCore
  let m := if s.flag F.CORE_WSEL.SPACE then c.im else c.ldm
  BitVec.ofNat 32 (leNat (m.slice (fun _ => 0) off 4))

end Sys2Proof.Machine
end

