-- ==== Sys2Proof/Machine/Servo.lean ====
section
/-!
DEFINITION. SRV (R178 to R190): battens, head position samples and the fits over a cell; batten lock (R154), the position error
trigger and the clearing of inhibit (R170, R173), and the tension setpoint (R208).
-/
namespace Sys2Proof.Machine

/-! ## Small operations -/

/-- A signed field given a value; one that the field cannot hold leaves a free value there.
DESIGN CHOICE: log entry 49. -/
def State.putSigned (s : State) (f : Field) (x : Int) (i : Nat := 0) : State :=
  if -(2 : Int) ^ (f.width - 1) ≤ x ∧ x < (2 : Int) ^ (f.width - 1) then s.setSfld f x i
  else (s.setFld f (Config.freeW64 s.freeCtr).toNat i).nextFree

/-- An input port's live value (R198). -/
def State.setLive (s : State) (p : Nat) (x : Rat) : State :=
  { s with mot := { s.mot with live := s.mot.live.set (fun _ => 0) p x } }

/-- A rational put into a list in rising order. -/
def ratInsert (x : Rat) : List Rat → List Rat
  | [] => [x]
  | y :: l => if x < y then x :: y :: l else y :: ratInsert x l

/-- The median of a list: of an even number, the mean of the middle two.
DEDUCED: log entry 46. -/
def median (l : List Rat) : Rat :=
  let l := l.foldr ratInsert []
  let n := l.length
  (l.getD ((n - 1) / 2) 0 + l.getD (n / 2) 0) / 2

/-- The mean of a nonempty list. -/
def mean (l : List Rat) : Rat := ratSum l / l.length

/-- The head's target servo track on a wrap for head position p (R27 to R29). -/
def targetTrack (wrap p : Nat) : Nat := 80 + 5984 * (wrap / 92) + 92 * p + wrap % 92

/-! ## Re-timing a stretch (R178, R179) -/

/-- A channel's stretch in order of increasing LPOS (R178). -/
def State.lposOrder (s : State) (c wrap : Nat) : List Rat :=
  let l := (s.srvChan c).stretch.map fun (x : Int) => (x : Rat)
  if wrap % 2 = 0 then l.reverse else l

/-- The place of an ADC sample count in that order, and the sample count of a place. -/
def SrvChan.placeOf (x : SrvChan) (wrap : Nat) (t : Rat) : Rat :=
  if wrap % 2 = 0 then t - x.stretchAt else x.stretchAt + x.stretch.length - 1 - t
def SrvChan.timeOf (x : SrvChan) (wrap : Nat) (p : Rat) : Rat :=
  if wrap % 2 = 0 then x.stretchAt + p else x.stretchAt + x.stretch.length - 1 - p

/-- The samples of a list at equal steps from a place on, by SRV's own interpolator (R179), at most 600. -/
def retimed (l : List Rat) (phase rate : Rat) : List Rat :=
  let n := if rate ≤ 0 then 0 else min 600 ((((l.length : Int) - 1 - phase) / rate).floor + 1).toNat
  (List.range n).map fun (k : Nat) =>
    let x := phase + k * rate
    interpolate (filterOf x) ((cut l (x.floor - 3) 8).map fun y => y.getD 0)

/-- One preamble bit of SRV's acquisition: place, integrator, and the sample before with its decision. -/
structure Acquired where
  place : Rat
  freq : Rat := 0
  lastZ : Rat := 0
  lastD : Rat := 0
  deriving DecidableEq, Repr

/-- A step of the loop of R116 under the acquisition gains (R118), its error taken at SRV's interpolator and its decision a sample's
sign: the spec gives SRV no loop of its own.
DESIGN CHOICE: log entry 45. -/
def Acquired.step (a : Acquired) (l : List Rat) (dff kp ki : Rat) : Acquired :=
  let z := interpolate (filterOf a.place) ((cut l (a.place.floor - 3) 8).map fun y => y.getD 0)
  let d : Rat := if 0 < z then 1 else -1
  let e := timingError (z * a.lastD - a.lastZ * d)
  { place := phaseOf (a.place + dff * (1 + a.freq) + kp * e), freq := ratClamp (-freqLimit) freqLimit (a.freq + ki * e),
    lastZ := z, lastD := d }

/-- Phase and rate of a stretch in LPOS order as SRV acquires them over the preamble's 96 bits, which follow a guard of 24 (R35, R179):
from the rate of the latest motion tick on, and held over the batten; the phase is given at the first bit of the stretch. -/
def State.acquire (s : State) (c wrap : Nat) : Rat × Rat :=
  let dff := s.loopStep 0
  let gain (f : Field) : Rat := gainOf (s.fld f c)
  let l := s.lposOrder c wrap
  let a := (List.range 96).foldl (fun (a : Acquired) _ => a.step l dff (gain F.RDC_TIM_CTL.KP_ACQ) (gain F.RDC_TIM_CTL.KI_ACQ))
    { place := phaseOf (24 * dff) }
  let rate := dff * (1 + a.freq)
  (a.place - 120 * rate, rate)

/-- Of re-timed samples, whether the mean magnitude up to each is too small and whether the baseline has jumped (R126). -/
def State.stretchRaw (s : State) (c : Nat) (l : List Rat) : List (Bool × Bool) :=
  (l.foldl (fun (a : List (Bool × Bool) × List Rat) y =>
    let before := (y :: a.2).take 32
    ((s.tooSmall c before, s.jumped c before) :: a.1, before)) ([], [])).1.reverse

/-- Their flags (R126 to R128), extended. A burst may be DC by design (R33), so the dropout condition counts before place `last`
alone; the decision condition has no target here.
DEDUCED: log entry 104. -/
def State.stretchFlags (s : State) (c : Nat) (raw : List (Bool × Bool)) (last : Nat) : List Bool :=
  extendFlags (s.defExt c) (raw.foldl (fun (a : List Bool × Nat × Nat) x =>
    let drop := if a.2.2 < last ∧ x.1 then a.2.1 + 1 else 0
    ((decide (8 ≤ drop) || x.2) :: a.1, drop, a.2.2 + 1)) ([], 0, 0)).1.reverse

/-! ## Fields of a batten (R33, R34, R180 to R185) -/

/-- Two re-timed samples of a dibit in LPOS order, and whether either bit is flagged (R181). -/
structure Dibit where
  first : Rat
  second : Rat
  flagged : Bool
  deriving DecidableEq, Repr

/-- What SRV measures in a batten (R33, R184): RMS values with 64 per ADC code. -/
structure BattenIn where
  preambleRms : Nat
  gray : List Dibit
  lpos : List Dibit
  burstA : Nat
  burstB : Nat
  burstC : Nat
  burstD : Nat
  burstFlagged : Bool
  deriving DecidableEq, Repr

/-- The RMS of a list of samples with 64 per ADC code, a resolution that no rule gives.
DESIGN CHOICE: log entry 111. -/
def rms (l : List Rat) : Nat := rootOf (4096 * mean (l.map fun y => y * y))

/-- Re-timed samples of a batten with their flags, from batten bit `k` on, its first bit at place `i` (R33). -/
def fieldOf (l : List (Rat × Bool)) (i : Int) (k len : Nat) : List (Rat × Bool) :=
  (cut l (i + k) len).map fun x => x.getD (0, true)

/-- Samples taken two by two as dibits. -/
def dibits : List (Rat × Bool) → List Dibit
  | a :: b :: l => ⟨a.1, b.1, a.2 || b.2⟩ :: dibits l
  | _ => []

/-- A batten whose first bit lies at place `i` (R33): preamble 0 to 95, sync 96, track 112, LPOS and CRC 142, bursts A to D 206, 270, 334
and 398, each measured over its bits 8 to 55 (R184). -/
def battenAt (l : List (Rat × Bool)) (i : Int) : BattenIn :=
  let b (k : Nat) := fieldOf l i (k + 8) 48
  let level (k : Nat) : Nat := rms ((b k).map (·.1))
  { preambleRms := rms ((fieldOf l i 0 96).map (·.1))
    gray := dibits (fieldOf l i 112 30)
    lpos := dibits (fieldOf l i 142 64)
    burstA := level 206
    burstB := level 270
    burstC := level 334
    burstD := level 398
    burstFlagged := ([206, 270, 334, 398].flatMap b).any (·.2) }

/-- Whether a dibit is ambiguous (R181), the preamble's amplitude its RMS, as in a tone of equal magnitudes.
DEDUCED: log entry 104. -/
def State.ambiguous (s : State) (b : BattenIn) (d : Dibit) : Bool :=
  d.flagged || decide (16384 * ratAbs (d.first - d.second) < s.fld F.SRV_CTL.DIB_TH * b.preambleRms)

/-- The bits of a list of dibits, most significant first, as a number. -/
def dibitValue (l : List Dibit) : Nat := l.foldl (fun n d => 2 * n + (decide (d.second < d.first)).toNat) 0

/-- The number whose Gray code is given, over 15 bits (R182). -/
def grayDecode (g : Nat) : Nat := (List.range 15).foldl (fun t k => t.xor (g / 2 ^ k)) 0

/-- The servo track number (R182); none when it is not valid. -/
def State.trackNumber (s : State) (b : BattenIn) (target : Nat) : Option Nat :=
  let l := b.gray.take 15
  let g := dibitValue l
  match l.zipIdx.filter fun e => s.ambiguous b e.1 with
  | [] => some (grayDecode g)
  | [e] =>
    let t := grayDecode g
    let u := grayDecode (g.xor (2 ^ (14 - e.2)))
    if t + 1 = u ∨ u + 1 = t then
      some (if ((t : Int) - target).natAbs ≤ ((u : Int) - target).natAbs then t else u)
    else none
  | _ => none

/-- The LPOS of a batten that passes (R183). -/
def State.lposField (s : State) (b : BattenIn) : Option Nat :=
  let l := b.lpos.take 32
  let v := dibitValue l
  if l.length = 32 ∧ l.all (fun d => !s.ambiguous b d) ∧ crc8 (leBytes 3 (v / 256)).reverse = BitVec.ofNat 8 v then some (v / 256)
  else none

/-- Normalised burst amplitudes (R184). -/
def burst (b : BattenIn) (x : Nat) : Rat := (x : Rat) / b.preambleRms

/-- Whether a batten's position is valid, its sync accepted (R184). -/
def State.positionOk (s : State) (c : Nat) (b : BattenIn) (t : Option Nat) : Bool :=
  t.isSome && decide (0 < b.preambleRms) && decide (16 * s.fld F.RDC_GAIN_CTL.AGC_TGT c ≤ b.preambleRms) &&
    decide (1 / 2 ≤ burst b b.burstA + burst b b.burstB) && decide (1 / 2 ≤ burst b b.burstC + burst b b.burstD) &&
    !b.burstFlagged

/-- The offset x of R185 in µm from the burst differences. -/
def burstOffset (pa pc : Rat) : Rat :=
  if ratAbs pc ≤ ratAbs pa then (if 0 ≤ pa then pc / 8 else 1 / 2 - pc / 8)
  else if 0 ≤ pc then 1 / 4 - pa / 8 else -1 / 4 + pa / 8

/-- The PES of a batten in nm (R185), target track s on a wrap. -/
def State.battenPes (s : State) (b : BattenIn) (t target wrap : Nat) : Rat :=
  let pa := (burst b b.burstA - burst b b.burstB) / (burst b b.burstA + burst b b.burstB)
  let pc := (burst b b.burstC - burst b b.burstD) / (burst b b.burstC + burst b b.burstD)
  let x := burstOffset pa pc
  let e : Int := 2 * (((t : Rat) - 2 * x) / 2 + 1 / 2).floor
  let pes := ((e : Rat) + 2 * x - target) * 500
  if wrap % 92 = 0 then pes - s.fld F.SRV_CTL.WRAP0_OFS else pes

/-! ## BATTEN_DECODE (R154, R180 to R186, R190) -/

/-- The servo sync (R33). -/
def syncPattern : List Bool := bitsOf 16 0xF0A6

/-- The place of the sync in re-timed samples (R180): predicted 15,118.08 bits at the measured rate after the last accepted one for
each cell since, and searched within ±8 bits with at most 1 error; in hunt an exact match with no flagged bit, and of several, among which the spec does
not choose, the first.
DESIGN CHOICE: log entry 110. -/
def State.findSync (s : State) (c wrap : Nat) (l : List (Rat × Bool)) (phase rate : Rat) : Option Int :=
  let x := s.srvChan c
  let seen := l.map fun y => some (({ bit := decide ((0 : Rat) < y.1) } : HeardBit), y.2)
  if x.hunt then
    ((List.range l.length).find? fun i =>
      let k := matchMark 0 syncPattern ((seen.drop i).take 16)
      k.errs == 0 && k.unflagged == 16).map fun (i : Nat) => (i : Int)
  else
    let at_ := nearest ((x.placeOf wrap (x.syncAt + (x.misses + 1 : Nat) * cellBits * rate) - phase) / rate)
    let stretch := (cut seen (at_ - 8) 32).map fun y => y.getD none
    (takeMark (tryMarks 8 syncPattern stretch) 0 8 12 1).map fun k => at_ + k.off

/-- Batten lock and the writer clock after a batten with an accepted sync, met at sample count `t` (R152, R154): lock is kept within ±2
bits of the place predicted from the channel's earlier battens, and regained by two such battens in a row; a channel in lock sets
the clock by its cell period: the mean rate over it, taken to its end by the acceleration in force. -/
def State.lockBatten (s : State) (c : Nat) (t : Rat) : State :=
  let w := s.wchan c
  let b := s.bitsAt t
  let cells : Rat := (s.srvChan c).misses + 1
  let known := !w.anchors.isEmpty
  let err := b - (w.anchors.getD 0 0 + cells * cellBits)
  let good := if known && decide (ratAbs err ≤ 2) then w.goodBattens + 1 else 0
  let cell := (t - w.anchorTime) / cells
  let s := s.setWchan c { w with goodBattens := min 2 good, anchors := (b :: w.anchors).take 4, anchorTime := t }
  let s := s.setLock c (decide (0 < good) && (s.battenLock c || decide (2 ≤ good)))
  let s := if known then s.setSrvChan c { s.srvChan c with cell := cell } else s
  if known && s.battenLock c && decide (0 < cell) then
    let rate := cellBits / cell + s.wrc.clockAcc * (t - w.anchorTime) / 2
    { s with wrc := { s.wrc with clockTime := t, clockBits := b, clockRate := rate } }
  else s

/-- A batten expected and not found (R154, R180): after two cells the channel is in hunt and without lock. -/
def State.missBatten (s : State) (c wrap : Nat) : State :=
  let x := s.srvChan c
  let s := if x.hunt then s else s.bump F.SRV_CNT.SYNC_MISS
  let m := min 2 (x.misses + 1)
  let s := s.setSrvChan c
    { x with
      misses := m
      hunt := decide (2 ≤ m)
      lpos := if 2 ≤ m then none else x.lpos.map (nextLpos wrap)
      jump := none
      trkValid := false
      posValid := false
      fresh := false
      cell := if 2 ≤ m then 0 else x.cell }
  let s := (s.setFlag F.SRV_CH.SYNC_OK false c).setFlag F.SRV_CH.POS_VALID false c
  let s := (s.setFlag F.SRV_CH.LPOS_OK false c).setFlag F.SRV_CH.TRK_VALID false c
  let w := s.wchan c
  let s := s.setWchan c { w with goodBattens := 0, anchors := if 2 ≤ m then [] else w.anchors }
  if 2 ≤ m then s.setLock c false else s

/-- LPOS after a batten (R183): what stands, and what waits for its successor; with the counts. -/
def State.followLpos (s : State) (x : SrvChan) (wrap : Nat) (field : Option Nat) : State × Option Nat × Option Nat :=
  match x.lpos.map (nextLpos wrap), field with
  | none, none => (s, none, none)
  | none, some l => (s, some l, none)
  | some p, none => (s.bump F.SRV_CNT.LPOS_MISS, some p, none)
  | some p, some l =>
    if l = p ∨ x.jump.map (nextLpos wrap) = some l then (s, some l, none)
    else (s.bump F.SRV_CNT.LPOS_JUMP, some p, some l)

/-- The coarse error (R190). -/
def State.coarse (s : State) : State :=
  let w := s.fld F.MOT_WRAP.W
  let l := ((List.range 64).filter fun c => (s.srvChan c).trkValid).map fun c =>
    (((s.srvChan c).track : Rat) - targetTrack w c) / 2
  if l.isEmpty then s
  else (s.putSigned F.SRV_EST2.COARSE (nearest (16 * median l))).setLive 21 (median l)

/-- A batten with an accepted sync, its sync at ADC sample count `syncAt` and its start in the direction of travel at `time` (R181 to
R186). -/
def State.takeBatten (s : State) (c wrap : Nat) (b : BattenIn) (syncAt time : Rat) : State :=
  let x := s.srvChan c
  let target := targetTrack wrap c
  let t := s.trackNumber b target
  let field := s.lposField b
  let s := s.lockBatten c ((64 * time).floor / 64)
  let (s, lpos, jump) := s.followLpos x wrap field
  let ok := s.positionOk c b t
  let pes := if ok then s.battenPes b (t.getD 0) target wrap else x.pes
  let s := s.setSrvChan c
    { s.srvChan c with
      track := t.getD x.track
      trkValid := t.isSome
      lpos := lpos
      jump := jump
      pes := pes
      posValid := ok
      time := (64 * time).floor
      syncAt := syncAt
      hunt := false
      misses := 0
      fresh := ok
      inCell := ok || x.inCell
      timed := true }
  let s := (s.setFlag F.SRV_CH.SYNC_OK true c).setFlag F.SRV_CH.POS_VALID ok c
  let s := (s.setFlag F.SRV_CH.LPOS_OK field.isSome c).setFlag F.SRV_CH.TRK_VALID t.isSome c
  let s := if ok then s.putSigned F.SRV_CH.PES (nearest pes) c else s
  s.coarse

/-- The batten that SRV reads from a channel's stretch at an acquired phase and rate (R179, R180, R184, R186): what it measures, the
place of its sync and its start in the direction of travel, both as ADC sample counts; none without an accepted sync. -/
def State.readBatten (s : State) (c wrap : Nat) (phase rate : Rat) : Option (BattenIn × Rat × Rat) :=
  let ys := retimed (s.lposOrder c wrap) phase rate
  let raw := s.stretchRaw c ys
  (s.findSync c wrap (List.zip ys (s.stretchFlags c raw raw.length)) phase rate).map fun k =>
    let l := List.zip ys (s.stretchFlags c raw (k + 110).toNat)
    let x := s.srvChan c
    let place (i : Int) : Rat := x.timeOf wrap (phase + i * rate)
    (battenAt l (k - 96), place k, place (if wrap % 2 = 0 then k - 96 else k + 376))

/-- BATTEN_DECODE (R152, R154, R178 to R186, R190): the stretch handed over by RDC, once its trailing guard has passed the reader, each
stretch once. -/
def execBattenDecode (c : Chan) (s : State) : Res :=
  if !s.chanOn c || !(s.srvChan c).ready || !s.clocked then .next s
  else
    let wrap := s.fld F.MOT_WRAP.W
    let (phase, rate) := s.acquire c wrap
    let s := s.setSrvChan c { s.srvChan c with ready := false }
    match s.readBatten c wrap phase rate with
    | none => .next (s.missBatten c wrap)
    | some (b, syncAt, time) => .next (s.takeBatten c wrap b syncAt time)

/-! ## HEAD_POSITION_SAMPLE (R170, R173, R187 to R189, R208) -/

/-- Head position relative to the centre of the head. -/
def headPos (p : Nat) : Rat := (p : Rat) - 63 / 2

/-- The sample of a phase (R187). -/
def State.headSample (s : State) (phase : Nat) : Option Rat :=
  let l := ((List.range 64).filter fun p => p % 8 == phase && (s.srvChan p).fresh).map fun p =>
    (s.srvChan p).pes - s.mot.sigma * headPos p
  let m := median l
  let l := l.filter fun v => decide (ratAbs (v - m) ≤ 1000)
  if l.isEmpty then none else some (mean l)

/-- The counts of R170 and R173 after a sample, given as SRV reports it.
DEDUCED: log entry 46. -/
def State.countSample (s : State) (pes : Option Int) : State :=
  let th := max 1 (s.fld F.WRC_INH_CTL.PES_TH)
  let s := match pes with
    | none => { s with wrc := { s.wrc with pesBad := 0, posLost := s.wrc.posLost + 1, clearSamples := 0 } }
    | some x =>
      if th < x.natAbs then { s with wrc := { s.wrc with pesBad := s.wrc.pesBad + 1, posLost := 0, clearSamples := 0 } }
      else { s with
        wrc := { s.wrc with pesBad := 0, posLost := 0, clearSamples := if s.triggered then 0 else s.wrc.clearSamples + 1 } }
  let n := max 1 (s.fld F.WRC_INH_CTL.PES_CNT)
  if n ≤ s.wrc.pesBad ∨ n ≤ s.wrc.posLost then s.inhibit F.WRC_STAT.INH_PES else s.autoClear

/-- A straight line through points (p, y) by least squares: its value at the centre of the head, and its slope (R189). -/
def lineFit (l : List (Nat × Rat)) : Rat × Rat :=
  let mx := mean (l.map fun e => headPos e.1)
  let my := mean (l.map fun e => e.2)
  let sxx := ratSum (l.map fun e => (headPos e.1 - mx) * (headPos e.1 - mx))
  let sxy := ratSum (l.map fun e => (headPos e.1 - mx) * (e.2 - my))
  let k := if sxx = 0 then 0 else sxy / sxx
  (my - k * mx, k)

/-- The tension setpoint's new value, once per cell (R208). -/
def State.tensionGoal (s : State) : State :=
  let k : Rat := (s.sfld F.MOT_TENS1.SPREAD_K : Rat) / 16
  let g := ratClamp (s.fld F.MOT_TENS0.T_MIN) (s.fld F.MOT_TENS1.T_MAX) (s.fld F.MOT_TENS0.T0 + k * s.mot.spread)
  { s with mot := { s.mot with tensGoal := g } }

/-- Cells between the batten of a reader and the latest batten of phase 7 (R31, R189), on a forward or a reverse wrap. -/
def phaseOffset (wrap p : Nat) : Rat :=
  if wrap % 2 = 0 then ((7 - p % 8 : Nat) : Rat) / 8 else if p % 8 = 7 then 0 else ((p % 8 + 1 : Nat) : Rat) / 8

/-- The timing residual of a reader in ns but for what is common to all (R189): its batten time, of 1/64 ADC samples of 2.5 ns, less the
time predicted for it from the phase offsets. -/
def State.residual (s : State) (wrap p : Nat) : Rat :=
  let cell : Rat := if s.wrc.clockRate = 0 then 0 else cellBits / s.wrc.clockRate
  5 / 2 * (((s.srvChan p).time : Rat) / 64 + phaseOffset wrap p * cell)

/-- The fits over the last cell (R189), and the tension setpoint. Timing counts also where the position was not valid (R186). -/
def State.cellFit (s : State) : State :=
  let ps := (List.range 64).filter fun p => (s.srvChan p).inCell
  let ok := decide (16 ≤ ps.length) && ps.any (fun p => decide (p ≤ 15)) && ps.any fun p => decide (48 ≤ p)
  let fit := lineFit (ps.map fun p => (p, (s.srvChan p).pes))
  let ts := (List.range 64).filter fun p => (s.srvChan p).timed
  let tim := lineFit (ts.map fun p => (p, s.residual (s.fld F.MOT_WRAP.W) p))
  let s := s.each ((List.range 64).filter fun p => (s.srvChan p).timed || (s.srvChan p).inCell) fun s p => s.setSrvChan p { s.srvChan p with inCell := false, timed := false }
  let s := if !ok then s.setFlag F.SRV_EST1.EST_VALID false
    else
      let spread := -fit.2 * 1000000 / 46000
      let skew := 2174 / 100 * tim.2 * s.tapeSpeed
      let s := { s with mot := { s.mot with sigma := fit.2, spread := spread } }
      let s := (s.putSigned F.SRV_EST0.OFFSET (nearest fit.1)).putSigned F.SRV_EST0.SPREAD (nearest (10 * spread))
      let s := (s.putSigned F.SRV_EST1.SKEW (nearest (10 * skew))).setFlag F.SRV_EST1.EST_VALID true
      ((s.setLive 2 fit.1).setLive 3 skew).setLive 4 spread
  s.tensionGoal

/-- HEAD_POSITION_SAMPLE (R187): the sample, its counts, and after phase 7 the fits. -/
def execHeadPositionSample (phase : Fin 8) (s : State) : Res := whileClocked s <|
  let m := s.headSample phase
  let s := s.each ((List.range 64).filter fun p => p % 8 == phase.val) fun s p =>
    if (s.srvChan p).fresh then s.setSrvChan p { s.srvChan p with fresh := false } else s
  let s := (s.setFld F.SRV_HEAD.PHASE phase).setFlag F.SRV_HEAD.VALID m.isSome
  let s := match m with
    | some x => ((s.putSigned F.SRV_HEAD.PES (nearest x)).setLive 0 x).setLive 1 1
    | none => s.setLive 1 0
  let s := s.countSample (m.map nearest)
  .next (if phase.val = 7 then s.cellFit else s)

end Sys2Proof.Machine
end

