-- ==== Sys2Proof/Machine/Motion.lean ====
section
/-!
DEFINITION. The motion engine (R191 to R210): numbers, the law program, the tick, loops, the motion link and the accelerometer;
and pace (R211 to R214).
-/
namespace Sys2Proof.Machine

/-! ## Numbers and stages (R191, R192) -/

/-- Address of element e of stage n (R215). -/
def stageAddr (n e : Nat) : Nat := 0xF01000 + 64 * n + 4 * e

/-- A mantissa. -/
def State.mantissa (s : State) (n e : Nat) : Int := (BitVec.ofNat 16 (s.reg (stageAddr n e)).toNat).toInt

/-- The value of an element (R191). -/
def State.element (s : State) (n e : Nat) : Rat := (s.mantissa n e : Rat) * 2 ^ s.fld F.MOT_STG.EXP n / 2 ^ 30

/-- Length of a stage. -/
def State.stageLen (s : State) (n : Nat) : Nat := s.fld F.MOT_STG.LEN n + 1

/-- The loop that owns a stage, none for owners 5 to 7. -/
def State.stageOwner (s : State) (n : Nat) : Option Nat :=
  let o := s.fld F.MOT_STG.OWNER n
  if o ≤ 4 then some o else none

/-- Whether a loop is closed (R200). -/
def State.loopClosed (s : State) (l : Nat) : Bool := (s.fld F.MOT_LOOP.STATE).testBit l

/-- To the nearest whole number, ties away from zero (R192). -/
def roundAway (x : Rat) : Int := if x < 0 then -((-x + 1 / 2).floor) else (x + 1 / 2).floor

/-- A mantissa within its range. -/
def satMantissa (m : Int) : Int := max (-32768) (min 32767 m)

/-- A mantissa stored. -/
def State.putMantissa (s : State) (n e : Nat) (m : Int) : State :=
  s.setReg (stageAddr n e) (BitVec.ofNat 32 (BitVec.ofInt 16 m).toNat)

/-- Whether steps write a stage: not while its owning loop is open (R201). -/
def State.stageWrites (s : State) (n : Nat) : Bool :=
  match s.stageOwner n with
  | some l => s.loopClosed l
  | none => true

/-- A result stored in a stage: rounded, saturated with SAT, and left out while the owning loop is open (R192, R201). -/
def State.putElement (s : State) (n e : Nat) (x : Rat) : State :=
  if !s.stageWrites n then s
  else
    let m := roundAway (x * 2 ^ 30 / 2 ^ s.fld F.MOT_STG.EXP n)
    let s := if satMantissa m = m then s else s.raise F.MOT_STAT.SAT
    s.putMantissa n e (satMantissa m)

/-! ## Steps (R193, R194) -/

/-- The fields of a step word (R193). -/
structure StepWord where
  op : Nat
  d : Nat
  di : Nat
  a : Nat
  ai : Nat
  b : Nat
  bi : Nat
  deriving DecidableEq, Repr

/-- A step word taken apart (R193). -/
def stepWord (w : Nat) : StepWord :=
  ⟨w / 2 ^ 27 % 32, w / 2 ^ 22 % 32, w / 2 ^ 18 % 16, w / 2 ^ 13 % 32, w / 2 ^ 9 % 16, w / 2 ^ 4 % 32, w % 16⟩

/-- Step k of program memory (R215). -/
def State.step (s : State) (k : Nat) : StepWord := stepWord (s.reg (0xF02000 + 4 * k)).toNat

/-- Cycles of a step (R194). -/
def State.stepCycles (s : State) (w : StepWord) : Nat :=
  match w.op with
  | 0x05 => s.stageLen w.a + 2
  | 0x06 => 2
  | 0x0C => s.stageLen w.d + 1
  | _ => 1

/-- The loop that owns an output channel (R199). -/
def channelLoop (c : Nat) : Option Nat :=
  match c with
  | 0 => some 0
  | 1 => some 2
  | 2 => some 1
  | 3 => some 3
  | 4 => some 4
  | _ => none

/-- The code of an OUT step (R199, R201). -/
def State.outCode (s : State) (c : Nat) (x : Rat) : W16 :=
  match channelLoop c with
  | some l => if s.loopClosed l then BitVec.ofInt 16 (satMantissa (roundAway (32768 * ratClamp (-1) 1 x)))
    else BitVec.ofNat 16 (s.fld F.MOT_HOLD.HOLD c)
  | none => BitVec.ofInt 16 (satMantissa (roundAway (32768 * ratClamp (-1) 1 x)))

/-- DOT (R194): elements of B beyond its length read 0. -/
def State.dot (s : State) (a b : Nat) : Rat :=
  ratSum ((List.range (s.stageLen a)).map fun k => s.element a k * (if k < s.stageLen b then s.element b k else 0))

/-- PUSH (R194): the elements move up first, and element 0 takes what the source reads then. -/
def State.push (s : State) (d a ai : Nat) : State :=
  if !s.stageWrites d then s
  else
    let old := (List.range (s.stageLen d)).map fun k => s.mantissa d k
    let s := s.each (old.zipIdx.drop 1) fun s e => s.putMantissa d e.2 (old.getD (e.2 - 1) 0)
    s.putElement d 0 (s.element a ai)

/-- Doublings that bring a magnitude to 16,384 or more, at most `n`. -/
def normShift : Nat → Nat → Nat
  | 0, _ => 0
  | n + 1, m => if 16384 ≤ m then 0 else normShift n (2 * m) + 1

/-- NORM (R194): the stage's largest magnitude into 16,384 to 32,767, as far as the exponent goes. -/
def State.norm (s : State) (d : Nat) : State :=
  if !s.stageWrites d then s
  else
    let ks := List.range (s.stageLen d)
    let big := ks.foldl (fun m k => max m (s.mantissa d k).natAbs) 0
    let e := s.fld F.MOT_STG.EXP d
    if big = 0 then s
    else if big = 32768 then
      if e = 31 then s
      else
        let s := s.each ks fun s k => s.putMantissa d k (roundAway ((s.mantissa d k : Rat) / 2))
        s.setFld F.MOT_STG.EXP (e + 1) d
    else
      let n := normShift e big
      let s := s.each ks fun s k => s.putMantissa d k (s.mantissa d k * 2 ^ n)
      s.setFld F.MOT_STG.EXP (e - n) d

/-- The effect of one step (R194), apart from where the program goes on. -/
def State.doStep (s : State) (w : StepWord) : State :=
  let a := s.element w.a w.ai
  let b := s.element w.b w.bi
  match w.op with
  | 0x01 => s.putElement w.d w.di a
  | 0x02 => s.putElement w.d w.di (a + b)
  | 0x03 => s.putElement w.d w.di (a - b)
  | 0x04 => s.putElement w.d w.di (a * b)
  | 0x05 => s.putElement w.d w.di (s.dot w.a w.b)
  | 0x06 => s.push w.d w.a w.ai
  | 0x07 =>
    let hi := s.element w.b (w.bi + 1)
    let lo := if a < b then b else a
    s.putElement w.d w.di (if lo < hi then lo else hi)
  | 0x08 => s.putElement w.d w.di (s.mot.ports.get (fun _ => 0) w.a)
  | 0x09 => { s with mot := { s.mot with codes := s.mot.codes.set (fun _ => 0) w.d (s.outCode w.d a) } }
  | 0x0C => s.norm w.d
  | 0x0D => s.putElement w.d w.di (ratAbs a)
  | _ => s

/-- Where the program goes after a step: one on, or two on for a skip that is taken. -/
def State.stepNext (s : State) (w : StepWord) (k : Nat) : Nat :=
  let a := s.element w.a w.ai
  if (w.op = 0x0A ∧ a < 0) ∨ (w.op = 0x0B ∧ a = 0) then k + 2 else k + 1

/-- The program from step k within a number of cycles: the state, and whether END was reached. A reserved operation, or the end
of program memory, is no END. -/
def runLaw : Nat → State → Nat → Nat → State × Bool
  | 0, s, _, _ => (s, false)
  | n + 1, s, k, left =>
    let w := s.step k
    let c := s.stepCycles w
    if 512 ≤ k ∨ left < c ∨ 0x0E ≤ w.op then (s, false)
    else if w.op = 0 then (s, true)
    else runLaw n (s.doStep w) (s.stepNext w k) (left - c)

/-- Whether a step breaks a condition of R195. -/
def State.badStep (s : State) (w : StepWord) : Bool :=
  let a := decide (s.stageLen w.a ≤ w.ai)
  let b := decide (s.stageLen w.b ≤ w.bi)
  let d := decide (s.stageLen w.d ≤ w.di)
  match w.op with
  | 0x00 => false
  | 0x01 => a || d
  | 0x02 => a || b || d
  | 0x03 => a || b || d
  | 0x04 => a || b || d
  | 0x05 => d
  | 0x06 => a
  | 0x07 => w.bi == 15 || a || b || d || decide (s.stageLen w.b ≤ w.bi + 1)
  | 0x08 => decide (21 < w.a) || d
  | 0x09 => decide (5 < w.d) || a
  | 0x0A => a
  | 0x0B => a
  | 0x0C => s.flag F.MOT_STG.KIND w.d
  | 0x0D => a || d
  | _ => true

/-- Whether the program passes the check of R195: no bad step before the first END, and an END. -/
def State.lawOk (s : State) : Bool :=
  let ws := (List.range 512).map s.step
  let before := ws.takeWhile fun w => w.op != 0
  decide (before.length < 512) && before.all fun w => !s.badStep w

/-! ## Starting, stopping and loops (R195, R197, R200 to R203) -/

/-- A write of 1 to RUN (R195); it clears fault stop (R197). -/
def State.motOn (s : State) : State :=
  if s.flag F.MOT_CTL.RUN then s
  else if !s.lawOk then s.raise F.MOT_STAT.BAD_STEP
  else
    let s := (s.setFlag F.MOT_CTL.RUN true).setFlag F.MOT_STAT.RUNNING true
    let s := s.setFlag F.MOT_STAT.FAULT_STOP false
    { s with mot := { s.mot with overruns := 0, overrunDue := false } }

/-- A write of 0 to RUN (R202). -/
def State.motOff (s : State) : State :=
  if s.fld F.MOT_LOOP.STATE ≠ 0 then s.raise F.MOT_STAT.LOOP_REFUSED
  else (s.setFlag F.MOT_CTL.RUN false).setFlag F.MOT_STAT.RUNNING false

/-- A live input port. -/
def State.livePort (s : State) (p : Nat) : Rat := s.mot.live.get (fun _ => 0) p

/-- Whether a loop may be opened (the loop table). -/
def State.mayOpen (s : State) (l : Nat) : Bool :=
  if l ≤ 2 then !s.flag F.WRC_STAT.WRITING
  else decide (ratAbs (s.livePort 5) < 1 / 1000) && decide (s.livePort 6 = 0)

/-- A write of the CLOSE bits (R200): requests take effect at the next tick boundary; one to open a loop that may not be opened is
ignored. -/
def State.setClose (s : State) (v : Nat) : State :=
  s.each (List.range 5) fun s l =>
    if v.testBit l then s.setBit F.MOT_LOOP.CLOSE l true
    else if !(s.fld F.MOT_LOOP.CLOSE).testBit l then s
    else if s.mayOpen l then s.setBit F.MOT_LOOP.CLOSE l false
    else s.raise F.MOT_STAT.LOOP_REFUSED

/-- A write to MOT_WRAP (R203). -/
def State.setWrap (s : State) (w : Nat) : State :=
  if 367 < w ∨ (s.mot.inDataZone ∧ 1 / 1000 ≤ ratAbs (s.livePort 5)) then s.raise F.MOT_STAT.WRAP_REFUSED
  else { s with mot := { s.mot with wrapReq := some w } }

/-- The overrun of a tick (R197): counted and reported; the third in a row is a fault stop. -/
def State.overrun (s : State) : State :=
  if !s.mot.overrunDue then s
  else
    let n := s.mot.overruns + 1
    let s := { s with mot := { s.mot with overrunDue := false, overruns := n } }
    let s := (s.raise F.MOT_STAT.OVERRUN).bump F.MOT_CNT.OVR_CNT
    let s := if n < 3 then s
      else
        let s := { s with mot := { s.mot with openAll := true } }
        ((s.setFld F.MOT_LOOP.CLOSE 0).wrcOff).raise F.MOT_STAT.FAULT_STOP
    s.report 0x0F01 n

/-- MOT_OVERRUN (R197).
DEDUCED: log entry 77. -/
def execMotOverrun (s : State) : Res := whileClocked s <| .next s.overrun

/-! ## The tick (R114, R196, R198, R199, R204 to R206, R208, R212) -/

/-- A motion frame (R204): type, value and the tick's sequence number under their CRC-8. -/
def motionFrame (type : Nat) (value : W16) (seq : Nat) : W32 :=
  let hi := type * 2 ^ 20 + value.toNat * 2 ^ 4 + seq % 16
  BitVec.ofNat 32 (hi * 256 + (crc8 (leBytes 3 hi).reverse).toNat)

/-- The value of a control frame (R205, R206): DRV_EN and BRAKE; STEP_EN while driving is left open.
DESIGN CHOICE: log entry 47. -/
def State.controlValue (s : State) : W16 :=
  if s.flag F.MOT_CTL.RUN && !s.flag F.MOT_STAT.FAULT_STOP then
    1 + (if (Config.freeW64 s.freeCtr).getLsbD 0 then 4 else 0)
  else 2

/-- The command frames of a tick, with the codes of the program of the tick before (R196, R205, R206). The codes are kept while RUN is
0: the first tick of a new run, before which no program has run, sends those of the run before.
DESIGN CHOICE: log entry 112. -/
def State.commandFrames (s : State) : State :=
  if !s.flag F.MOT_CTL.LINK_EN then s
  else
    let code (c : Nat) : W16 := if s.flag F.MOT_CTL.RUN then s.mot.codes.get (fun _ => 0) c else 0
    let ctl := s.controlValue
    let f (line : Nat) (type : Nat) (v : W16) : Out := .motionFrame line (motionFrame type v s.mot.tick)
    let l := [f 0 1 (code 0), f 0 2 (code 1), f 0 3 (code 2), f 0 4 ctl, f 1 5 (code 3), f 1 6 (code 4), f 1 7 (code 5), f 1 4 ctl]
    (s.each l State.emit).nextFree

/-- A value moved toward another by at most a step. -/
def toward (x goal by_ : Rat) : Rat := if x < goal then (if goal < x + by_ then goal else x + by_) else if x - by_ < goal then goal else x - by_

/-- The acceleration limit in m/s² (PACE_CTL ACC). -/
def State.paceAcc (s : State) : Rat := (max 1 (min 16 (s.fld F.PACE_CTL.ACC)) : Nat) / 4

/-- The nearest whole number to the square root of a fraction in millionths, times 1,000; a root is never a tie of two. -/
def sqrtMilli (x : Rat) : Int :=
  let y := 1000000 * x
  let n := Nat.sqrt y.floor.toNat
  if (2 * n + 1 : Nat) * (2 * n + 1 : Nat) < 4 * y then n + 1 else n

/-- Metres to the end of the data zone in a direction (R32, R210), by the LPOS that stands on the first channel that has one; below
zero past the end.
DEDUCED: log entry 48. -/
def State.zoneLeft (s : State) (back : Bool) : Option Rat :=
  ((List.range 64).findSome? fun c => (s.srvChan c).lpos).map fun l =>
    (if back then (l : Rat) - 6500 else 3373500 - (l : Rat)) * 384 / 1000000

/-- A speed in m/s as the end of the data zone ahead limits it (R210): it is crossed at no more than 0.80 m/s, and behind it the tape
stops. -/
def State.zoneSpeed (s : State) (v : Rat) : Rat :=
  match s.zoneLeft (decide (v < 0)) with
  | none => v
  | some d =>
    let m : Rat := if d ≤ 0 then 0
      else if 64 / 100 + 2 * s.paceAcc * d < v * v then (sqrtMilli (64 / 100 + 2 * s.paceAcc * d) : Rat) / 1000 else ratAbs v
    if v < 0 then -m else m

/-- The sign of the direction of reading and writing. -/
def Mot.way (m : Mot) : Rat := if m.reverse then -1 else 1

/-- The speed in m/s that a backhitch asks for (R213): to a stop, back as far as the run-up needs and no faster than the tape can be
stopped there, and to a stop. -/
def State.backSpeed (s : State) : Rat :=
  let d := s.mot.backAt - s.mot.backGoal
  if !s.mot.reversing || decide (d ≤ 0) then 0
  else
    let v := (sqrtMilli (2 * s.paceAcc * d / 1000) : Rat) / 1000
    s.mot.way * (if 8 < v then -8 else -v)

/-- The speed target in m/s (R210, R212, R213): pace's, or while EN is 0 that of PACE_MAN, within the limits of the data zone; in a
backhitch the one of its step. -/
def State.speedGoal (s : State) : Rat :=
  if !s.flag F.PACE_CTL.EN then s.zoneSpeed (((max (-8000) (min 8000 (s.sfld F.PACE_MAN.SPEED)) : Int) : Rat) / 1000)
  else if s.mot.stopped then s.backSpeed
  else s.zoneSpeed ((s.mot.target : Rat) / 1000)

/-- A backhitch's way and step after a tick at a speed (R213): once the tape stands it is reversed, and once it stands again where the
run-up begins it waits. -/
def State.backStep (s : State) (v : Rat) : State :=
  if !s.mot.stopped then s
  else
    let at_ := s.mot.backAt + s.mot.way * v / 50
    let there := decide (at_ ≤ s.mot.backGoal)
    { s with
      mot := { s.mot with
        backAt := at_
        reversing := if v = 0 ∧ !s.mot.waiting then !(s.mot.reversing && there) else s.mot.reversing
        waiting := s.mot.waiting || (decide (v = 0) && s.mot.reversing && there) } }

/-- Ports 6 and 7 after a tick (R212), and the tension setpoint (R208). -/
def State.references (s : State) : State :=
  let v := s.livePort 6
  let v' := toward v s.speedGoal (s.paceAcc / 50000)
  let t := toward s.mot.tension s.mot.tensGoal (1 / 5)
  let s := (s.setLive 6 v').setLive 7 ((v' - v) * 50000)
  ({ s with mot := { s.mot with tension := t } }.setLive 12 (t / 1000)).backStep v'

/-- Turns per second of a reel from the rate of its hall sensors' changes: six to each pole pair (R198). -/
def State.reelTurns (s : State) (hall : Int) : Rat := (hall : Rat) / 65536 / (6 * max 1 (s.fld F.MOT_CTL.POLES) : Nat)

/-- Radians in a turn, 2π to twenty digits (R198).
DEDUCED: log entry 96. -/
def radPerTurn : Rat := 62831853071795864769 / 10 ^ 19

/-- Cell periods, in ADC samples, of the channels in batten lock. -/
def State.lockedCells (s : State) : List Rat :=
  ((List.range 64).filter fun c => s.battenLock c && decide (0 < (s.srvChan c).cell)).map fun c => (s.srvChan c).cell

/-- Tape speed (R198): 384 µm over the mean cell period, in 400 MS/s samples, of the channels in lock, with the sign that the take-up
reel gives, or the wrap while that stands; without lock take-up reel speed times radius.
DEDUCED: log entry 96. -/
def State.speedSeen (s : State) : Rat :=
  let w := s.livePort 9
  match s.lockedCells with
  | [] => w * s.livePort 11 / 1000
  | l =>
    let v := 153600 / mean l
    if w < 0 then -v else if 0 < w then v else if s.fld F.MOT_WRAP.W % 2 = 0 then v else -v

/-- A reel's radius in mm (R198): port 5 over reel speed, averaged over one revolution, with lock at 0.5 m/s or more alone. -/
def State.reelRadius (s : State) (reel : Nat) (turns : Rat) : State :=
  let v := ratAbs (s.livePort 5)
  let w := ratAbs (s.livePort (8 + reel))
  if s.lockedCells.isEmpty || decide (v < 1 / 2) || decide (w = 0) then s
  else
    let sum := s.mot.radSum.get (fun _ => 0) reel + 1000 * v / w
    let n := s.mot.radCount.get (fun _ => 0) reel + 1
    let turn := s.mot.radTurn.get (fun _ => 0) reel + ratAbs turns / 50000
    let keep (s : State) (sum : Rat) (n : Nat) (turn : Rat) : State :=
      { s with
        mot := { s.mot with
          radSum := s.mot.radSum.set (fun _ => 0) reel sum
          radCount := s.mot.radCount.set (fun _ => 0) reel n
          radTurn := s.mot.radTurn.set (fun _ => 0) reel turn } }
    if turn < 1 then keep s sum n turn else keep (s.setLive (10 + reel) (sum / n)) 0 0 0

/-- Live values that a tick brings up (R198): reel speeds, tape speed, radii, SHOCK_N. -/
def State.tickInputs (s : State) (i : TickIn) : State :=
  let a := s.reelTurns i.hallSupply
  let b := s.reelTurns i.hallTakeup
  let s := (s.setLive 8 (radPerTurn * a)).setLive 9 (radPerTurn * b)
  let s := { s with mot := { s.mot with speedWas := s.tapeSpeed, inDataZone := i.inDataZone } }
  let s := (s.setLive 5 s.speedSeen).setLive 20 (if s.wrc.shockLow then 1 else 0)
  (s.reelRadius 0 a).reelRadius 1 b

/-- What a tick boundary brings into effect: loop requests, fault stop's opening of every loop, a written wrap (R197, R200,
R203). -/
def State.boundary (s : State) : State :=
  let s := if s.mot.openAll then s.setFld F.MOT_LOOP.CLOSE 0 else s
  let s := s.setFld F.MOT_LOOP.STATE (s.fld F.MOT_LOOP.CLOSE)
  let s := match s.mot.wrapReq with
    | some w => s.setFld F.MOT_WRAP.W w
    | none => s
  { s with mot := { s.mot with openAll := false, wrapReq := none } }

/-- The CTF cutoff of every channel (R114), in Hz, between 15 and 190 MHz. -/
def State.retune (s : State) : State :=
  s.each s.chansOn fun s c =>
    let f := (max 24 (min 48 (s.fld F.RDC_CTF_CTL.RATIO c)) : Nat) * (39370000 : Rat) * ratAbs s.tapeSpeed / 64
    s.setRchan c { s.rchan c with cutoff := ratClamp 15000000 190000000 f }

/-- The law program of a tick: with END within BUDGET cycles its codes go out at the next tick; otherwise those of the tick
before are sent again (R197). -/
def State.law (s : State) : State :=
  let codes := s.mot.codes
  let (s, done) := runLaw 4000 s 0 (min 4000 (s.fld F.MOT_CTL.BUDGET))
  if done then { s with mot := { s.mot with overruns := 0 } }
  else { s with mot := { s.mot with overrunDue := true, codes := codes } }

/-- MOT_TICK (R152, R157, R196): boundary, snapshot, MOT_SYNC and command frames, program; the writer clock and the blocks that its links
have sent meanwhile. -/
def execMotTick (inp : TickIn) (s : State) : Res := whileClocked s <|
  let s := s.overrun.boundary
  let s := { s with mot := { s.mot with tick := s.mot.tick + 1 } }
  let s := (s.tickInputs inp).references
  let s := { s with mot := { s.mot with ports := s.mot.live } }
  let s := s.retune.clockTick.sendLinks
  let s := (if s.flag F.MOT_CTL.LINK_EN then s.emit .motSync else s).commandFrames
  .next (if s.flag F.MOT_CTL.RUN then s.law else s)

/-- The port that a returned frame's type feeds (R198, R205). -/
def diPort (type : Nat) : Option Nat :=
  match type with
  | 0x9 => some 13
  | 0xA => some 14
  | 0xB => some 15
  | 0xD => some 16
  | 0xE => some 17
  | 0xF => some 18
  | _ => none

/-- MOT_DI_FRAME (R205, R206). -/
def execMotDiFrame (_line : Fin 2) (frame : W32) (s : State) : Res := whileClocked s <|
  let f := frame.toNat
  let type := f / 2 ^ 28
  let value : W16 := BitVec.ofNat 16 (f / 2 ^ 12)
  if crc8 (leBytes 3 (f / 256)).reverse ≠ BitVec.ofNat 8 f ∨ f / 256 % 16 ≠ s.mot.tick % 16 then
    .next ((s.bump F.MOT_CNT.DI_ERR).raise F.MOT_STAT.LINK_ERR)
  else if type = 0xC then
    .next (if value.getLsbD 0 || value.getLsbD 1 || value.getLsbD 3 then s.report 0x0F02 value.toNat else s)
  else match diPort type with
    | some p => .next (s.setLive p ((value.toInt : Rat) / 32768))
    | none => .next s

/-! ## Accelerometer (R209) -/

/-- The acceleration of one axis in mg after its mean over the last 256 reads is taken off, with the history it leaves.
DESIGN CHOICE: log entry 47. -/
def State.axis (s : State) (raw : List Byte) (k : Nat) : State × Rat :=
  let d := s.valueDesc k
  let x := (rawValue d raw : Rat) * (natAt d 2 1 : Nat) / 16
  let h := (x :: s.mot.accHist.get (fun _ => []) k).take 256
  ({ s with mot := { s.mot with accHist := s.mot.accHist.set (fun _ => []) k h } }, x - mean h)

/-- ACC_READ (R209): the SPI transfers of the command list; a read without a response leaves the trigger off. -/
def execAccRead (replies : List SensorReply) (s : State) : Res := whileClocked s <|
  if !s.flag F.MOT_CTL.RUN then .next s
  else
    let r := runList s.sensorList true replies {}
    let s := s.each r.sent fun s b => s.emit (.sensorBus b)
    if r.spiFail then
      .next (({ s with wrc := { s.wrc with accHigh := false } }.raise F.MOT_STAT.ACC_FAIL).report 0x0F03 0)
    else
      let raw := bytesAt ([0, 0] ++ r.raw) 0 16
      let (s, big) := ((List.range 6).filter fun k => natAt (s.valueDesc k) 0 1 == 2).foldl
        (fun (a : State × Rat) k =>
          let (s, x) := a.1.axis raw k
          (s, if a.2 < ratAbs x then ratAbs x else a.2)) (s, 0)
      let high := decide ((10 * max 1 (s.fld F.MOT_ACC.ACC_LIM) : Nat) < big)
      let s := { s with wrc := { s.wrc with accHigh := high } }.setLive 19 (big / 1000)
      .next (if high && s.flag F.WRC_INH_CTL.ACC_EN then s.noClear.inhibit F.WRC_STAT.INH_ACC else s)

/-! ## Pace (R211, R213, R214) -/

/-- Percent of `n` in `d`. -/
def percent (n d : Nat) : Rat := 100 * (n : Rat) / d

/-- The larger of two fractions. -/
def ratMax (a b : Rat) : Rat := if a < b then b else a

/-- The staging queues that PACE_QSEL names (R211). -/
def State.paceQueues (s : State) : List Nat :=
  (List.range 4).flatMap fun n =>
    (if s.flag F.PACE_QSEL.VALID0 n then [s.fld F.PACE_QSEL.QUEUE0 n] else []) ++
      (if s.flag F.PACE_QSEL.VALID1 n then [s.fld F.PACE_QSEL.QUEUE1 n] else [])

/-- Allocated buffers of a class. -/
def State.inUse (s : State) (c : Nat) : Nat :=
  (s.bufs.filter fun (e : Nat × Buf) => e.1 / 2 ^ 21 == c && e.2.owner != Owner.none).length

/-- Work items posted and not yet fetched (R382). -/
def State.postedItems (s : State) : Nat :=
  (List.range 256).foldl (fun n k => if s.pairEn (k / 16) (k % 16) then n + s.sqItems (k / 16) (k % 16) else n) 0

/-- The fill of R211. -/
def State.paceFill (s : State) : Rat :=
  let f := s.paceQueues.foldl (fun m q => ratMax m (if s.qEnabled q then percent (s.qCount q) (s.qDepth q) else 0)) 0
  let c := s.fld F.PACE_CTL.PACE_CLASS
  let f := if c < 8 ∧ s.fld F.POOL_COUNT.COUNT c ≠ 0 then ratMax f (percent (s.inUse c) (s.fld F.POOL_COUNT.COUNT c)) else f
  let h := s.fld F.PACE_DEPTH.HDEPTH
  if !s.flag F.PACE_CTL.MODE && h != 0 then ratMax f (percent s.postedItems h) else f

/-- The limits of the speed target (R211): a linear one, and the square of the one that the end of the data zone sets, where the place
of the tape is known. -/
def State.paceLimits (s : State) : Rat × Rat :=
  let v : Rat := (max 800 (min 8000 (s.fld F.PACE_CTL.VMAX)) : Nat) / 1000
  let v := if s.adaptive then v else if v < 2 then v else 2
  (v, match s.zoneLeft s.mot.reverse with
    | some d => 64 / 100 + 2 * s.paceAcc * (if d < 0 then 0 else d)
    | none => v * v)

/-- Whether a speed lies below vmax. -/
def belowLimit (lim : Rat × Rat) (v : Rat) : Bool := decide (v < lim.1) && (decide (v < 0) || decide (v * v < lim.2))

/-- The clamp of a speed between 0.800 and vmax, to 1 mm/s (R211). -/
def clampSpeed (lim : Rat × Rat) (v : Rat) : Int :=
  if v < 8 / 10 then 800
  else if belowLimit lim v then nearest (1000 * v)
  else if lim.1 * lim.1 ≤ lim.2 then nearest (1000 * lim.1)
  else sqrtMilli lim.2

/-- The register value of a fill (PACE_STAT).
DEDUCED: log entry 48. -/
def fillField (f : Rat) : Nat :=
  let n := f.floor.toNat
  min 255 (if f.den ≠ 1 ∧ Config.roundUp f.num f.den then n + 1 else n)

/-- Pace decides a stop at the next boundary (R213): demand below 0.80 m/s for STOP_N updates, or a read fill above 90 % for as
many; a write stop is not made while a seal waits. -/
def State.paceStop (s : State) : State :=
  let n := max 1 (s.fld F.PACE_LAW.STOP_N)
  let rd := s.flag F.PACE_CTL.MODE
  let due := decide (n ≤ s.mot.below) || (rd && decide (n ≤ s.mot.readHigh))
  if due && !s.mot.stopPending && !s.mot.stopped && (rd || (s.wrc.placed && !s.sealWaits)) then
    { s with mot := { s.mot with stopPending := true } }
  else s

/-- Where the reversed tape is to stand, in mm before the place where it began to decelerate (R213 steps 3 and 4): the segment that is
rewritten has gone past the readers, two cells and the writer's distance on; 32 cells of run-up at the resume speed lie before it, and
the way to reach that speed.
DEDUCED: log entry 48. -/
def State.runUp (s : State) : Rat :=
  let v : Rat := (max 800 (s.fld F.PACE_STAT.TARGET) : Nat) / 1000
  0 - ((s.gapBits / cellBits + 34) * 384 / 1000 + 1000 * v * v / (2 * s.paceAcc))

/-- In a backhitch the run-up is that of the resume speed as it stands (R213 step 4): where it has risen, the tape goes back further. -/
def State.longerRun (s : State) : State :=
  if !s.mot.stopped || decide (s.mot.backGoal ≤ s.runUp) then s
  else
    { s with
      mot := { s.mot with
        backGoal := s.runUp
        reversing := s.mot.reversing || s.mot.waiting
        waiting := s.mot.waiting && decide (s.mot.backAt ≤ s.runUp) } }

/-- PACE_UPDATE (R211, R213). -/
def execPaceUpdate (s : State) : Res := whileClocked s <|
  if !s.flag F.PACE_CTL.EN then .next s
  else
    let rd := s.flag F.PACE_CTL.MODE
    let fill := s.paceFill
    let e := if rd then 50 - fill else fill - 50
    let ry := ((if rd then s.mot.ryFreed else s.mot.ryNow) :: s.mot.ry).take 32
    let vff := (ry.foldl (· + ·) 0 : Nat) / (32 / 1000 : Rat) * (6397 / 100000)
    let vraw := vff + (s.fld F.PACE_LAW.KP : Rat) * e / 1000 + s.mot.integ
    let lim := s.paceLimits
    let integ := if 8 / 10 < vraw ∧ belowLimit lim vraw then s.mot.integ + (s.fld F.PACE_LAW.KI : Rat) / 16 * e / 1000
      else s.mot.integ
    let goal := clampSpeed lim vraw
    let s := { s with
      mot := { s.mot with
        ry := ry
        ryNow := 0
        ryFreed := 0
        integ := integ
        below := if vraw < 8 / 10 then s.mot.below + 1 else 0
        readHigh := if rd ∧ 90 < fill then s.mot.readHigh + 1 else 0
        fill := fill
        target := if s.mot.stopped then 0 else if s.mot.reverse then -goal else goal } }
    let s := (s.setFld F.PACE_STAT.TARGET goal.toNat).setFld F.PACE_STAT.FILL (fillField fill)
    .next s.longerRun.paceStop

/-- Whether the last segment of a write has passed every reader and been verified (R213). -/
def State.tailVerified (s : State) : Bool := s.drained && s.activeList.all fun c => (s.wchan c).awaiting.isEmpty

/-- BACKHITCH_DECELERATE (R213): the tape decelerates to a stop and reverses; the links go idle, and a gate-on waits for their idle
blocks anew (R159). -/
def execBackhitchDecelerate (s : State) : Res := whileClocked s <|
  if !s.mot.stopPending || s.mot.stopped || !(s.flag F.PACE_CTL.MODE || s.tailVerified) then .next s
  else
    let s := { s with
      mot := { s.mot with
        stopPending := false
        stopped := true
        below := 0
        readHigh := 0
        target := 0
        backAt := 0
        backGoal := s.runUp
        reversing := false
        waiting := false }
      wrc := { s.wrc with idleSent := 0 } }
    .next ((s.raise F.PACE_STAT.STOPPED).bump F.PACE_CNT.BACKHITCH)

/-- A channel's last segment to be written again, its courses judged anew from the rewrite (R213, R214). -/
def WChan.rewritten (w : WChan) : WChan :=
  match w.rewind with
  | some (q, a) => { w with queue := q.map (fun x => { x with tail := false }) ++ w.queue, atom := a, seg := w.seg - 1, rewind := none }
  | none => w

/-- Whether the tape, reversed and waiting, goes on (R213 step 3). -/
def State.mayResume (s : State) : Bool :=
  s.mot.waiting && if s.flag F.PACE_CTL.MODE then decide (s.mot.fill < 25)
  else s.sealWaits || decide (max 1 (s.fld F.PACE_LAW.RESUME_YLM) ≤
    (s.fmt.jobs.filter fun j => !j.started || j.scheduled.isSome).length)

/-- BACKHITCH_RESUME (R144, R213, R214): the tape goes forward again and each channel rewrites its last segment; a reading stop
resumes in hunt.
DEDUCED: log entry 48. -/
def execBackhitchResume (s : State) : Res := whileClocked s <|
  if !s.mot.stopped || !s.mayResume then .next s
  else
    let goal : Int := max 800 (s.fld F.PACE_STAT.TARGET)
    let s := { s with mot := { s.mot with stopped := false, waiting := false, target := if s.mot.reverse then -goal else goal } }
    let s := s.setFlag F.PACE_STAT.STOPPED false
    .next (if s.flag F.PACE_CTL.MODE then s.each s.chansOn fun s c => s.enterHunt c (s.rchan c).count
      else s.each (List.range 64) fun s c => s.setWchan c (s.wchan c).rewritten)

/-- TURNAROUND (R210): once the tape, slowed at the end of the data zone, stands in the turnaround zone, the speed reference turns to the
other direction, at 0.80 m/s or more into the data zone. -/
def execTurnaround (s : State) : Res :=
  if !s.clocked || s.mot.inDataZone || s.livePort 6 != 0 || decide (1 / 1000 ≤ ratAbs (s.livePort 5)) then .next s
  else
  let r := !s.mot.reverse
  let v : Int := max 800 (s.mot.target.natAbs : Int)
  .next { s with mot := { s.mot with reverse := r, target := if r then -v else v } }

end Sys2Proof.Machine
end

