-- ==== Sys2Proof/Machine/Ring.lean ====
section
/-!
DEFINITION. The ring ports (R388 to R399): frames received, forwarded, folded and delivered, messages between programs, the
lives of a port, and partner reports at the umpire (R402).
-/
namespace Sys2Proof.Machine

/-! ## SEND (R393) -/

/-- The frames of a message: 2,048 payload bytes each, the last shorter (R393). -/
def chunks : Nat → Nat → List Byte → List (Nat × List Byte)
  | 0, _, _ => []
  | n + 1, off, l => if l.length ≤ 2048 then [(off, l)] else (off, l.take 2048) :: chunks n (off + 2048) (l.drop 2048)

/-- A SEND past its checks: its frames leave by the port of its target. A destination that no port leads to is not on the ring.
DEDUCED: log entry 55. -/
def State.sendFrames (s : State) (p : Port) (c : Cmd) (l : List Byte) : State :=
  let dst := dArg c.desc
  let cls := dD c.desc
  let n := l.length
  let (s, m) := s.newMsg
  let one (a : State × Bool) (e : Nat × List Byte) : State × Bool :=
    let last := e.1 + e.2.length == n
    let (s, ok) := a.1.ringSend p (frameHeader cls last dst s.devId m.toNat e.1 n e.2.length) e.2
    (s, a.2 && ok)
  let (s, ok) := (chunks (n / 2048 + 1) 0 l).foldl one (s, true)
  if !ok && dst != 0xFFFF then s.finish c St.BAD_PARAM 2
  else { s with rng := { s.rng with sending := s.rng.sending ++ [⟨c, m, dst == 0xFFFF⟩] } }

/-- The engine target of a port. -/
def portTarget : Port → Nat
  | .east => 5
  | .west => 6

/-- SEND (R393).
DEDUCED: log entry 55. -/
def execSend (p : Port) (i : Nat) (s : State) : Res :=
  if !s.flag F.RNG_CTL.RUN then .next s
  else runCmd (portTarget p) i 1 s fun c s =>
    let n := dC c.desc
    if n = 0 then s.finish c St.OK
    else if dD c.desc < 0x40 ∨ dArg c.desc = 0 ∨ 16777216 < n then s.finish c St.BAD_PARAM
    else match s.engCheck c (dA c.desc) n with
      | some e => s.finish c e
      | none =>
        let (s, l, m) := s.taRead (dA c.desc) n
        if m then s.finish c St.POISON else s.sendFrames p c l

/-- A SEND that waits ends. -/
def State.endSend (s : State) (x : Sending) (st : W16) (detail : Nat) : State :=
  ({ s with rng := { s.rng with sending := s.rng.sending.erase x } }).finish x.cmd st detail

/-- SEND_RECEIPT_TIMEOUT (R393): no receipt within 1 ms of the last frame. A broadcast waits for the first hop alone. -/
def execSendReceiptTimeout (msg : W16) (s : State) : Res :=
  whileClocked s <| match s.rng.sending.find? fun x => x.msg == msg && !x.broadcast with
  | some x => .next (s.endSend x St.NOT_READY 1)
  | none => .next s

/-- Whether a frame of this formatter's message still waits on a port for its acknowledgement. -/
def RPort.holds (r : RPort) (src msg : Nat) : Bool :=
  (r.unacked ++ r.held).any fun f => fhSrc f.header == src && fhMsg f.header == msg

/-- Broadcast SENDs whose last frame the first hop has acknowledged complete OK (R393). -/
def State.endBroadcasts (s : State) : State :=
  let holds (x : Sending) : Bool := s.rng.east.holds s.devId x.msg.toNat || s.rng.west.holds s.devId x.msg.toNat
  s.each (s.rng.sending.filter fun x => x.broadcast && !holds x) fun s x => s.endSend x St.OK 0

/-- A receipt reaches this formatter (R393, R396, R418, R424): it ends the SEND whose message it names, unless that is a broadcast;
TEAM takes those for its own frames. -/
def State.takeReceipt (s : State) (msg : W16) (st : W16) : State :=
  match s.rng.sending.find? fun x => x.msg == msg && !x.broadcast with
  | some x => s.endSend x st (if st = St.BAD_PARAM then 2 else 0)
  | none => s.teamReceipt msg st

/-- RECEIPT (R393). -/
def execReceipt (f : RingFrame) (s : State) : Res :=
  whileClocked s <| if fhClass f.header = 2 ∧ frameOk f ∧ fhDst f.header = s.devId then
    .next (s.takeReceipt (BitVec.ofNat 16 (natAt f.payload 0 2)) (BitVec.ofNat 16 (natAt f.payload 2 2)))
  else .next s

/-! ## POST_RX and messages (R394) -/

/-- POST_RX (R394): its buffer is posted for its class; a 17th ends EMPTY. -/
def execPostRx (p : Port) (i : Nat) (s : State) : Res :=
  runCmd (portTarget p) i 2 s fun c s =>
    match s.engCheckW c (dA c.desc) (dC c.desc) with
    | some e => s.finish c e
    | none =>
      if 16 ≤ (s.rng.posted.filter fun x => dArg x.desc == dArg c.desc).length then s.finish c St.EMPTY
      else { s with rng := { s.rng with posted := s.rng.posted ++ [c] } }

/-- Whether every byte of a message is held. -/
def Reasm.full (r : Reasm) : Bool := r.total ≤ r.got.foldl (fun n e => n + e.2) 0

/-- A message held whole: receipt OK by the port of its last frame, then its POST_RX completes (R394). -/
def State.messageDone (s : State) (p : Port) (r : Reasm) : State :=
  let s := { s with rng := { s.rng with
    reasm := s.rng.reasm.filter fun x => !(x.src == r.src && x.msg == r.msg)
    finished := s.rng.finished ++ [(r.src, r.msg)] } }
  (s.receiptTo p r.src r.msg St.OK).finish r.cmd St.OK r.src r.total

/-- A payload put into its message. -/
def State.reasmPut (s : State) (p : Port) (r : Reasm) (off : Nat) (b : List Byte) : State :=
  let s := s.bufWrite (taHandle (dA r.cmd.desc)) (taOff (dA r.cmd.desc) + off) b false
  let r := { r with got := r.got ++ [(off, b.length)] }
  let s := { s with rng := { s.rng with
    reasm := s.rng.reasm.map fun x => if x.src = r.src ∧ x.msg = r.msg then r else x } }
  if r.full then s.messageDone p r else s

/-- A frame of a program's class reaches its destination (R394). -/
def State.messageIn (s : State) (p : Port) (h b : List Byte) : State :=
  let src := fhSrc h
  let msg := fhMsg h
  let off := fhOff h
  let total := fhTotal h
  if s.rng.finished.contains (src, msg) then s
  else match s.rng.reasm.find? fun r => r.src == src && r.msg == msg with
    | some r =>
      if r.got.any (fun e => e.1 == off) || decide (r.total < off + b.length) then s else s.reasmPut p r off b
    | none =>
      if off ≠ 0 then s
      else match s.rng.posted.find? fun c => dArg c.desc == fhClass h && decide (total ≤ dC c.desc) with
        | none => s.receiptTo p src msg St.EMPTY
        | some c =>
          if 32 ≤ s.rng.reasm.length ∨ total < b.length then s.receiptTo p src msg St.EMPTY
          else
            let r : Reasm := { src := src, msg := msg, cls := fhClass h, total := total, cmd := c, got := [] }
            let s := { s with rng := { s.rng with posted := s.rng.posted.erase c, reasm := s.rng.reasm ++ [r] } }
            s.reasmPut p r 0 b

/-! ## Partner reports (R402, R403) -/

/-- A report from a ring partner (R401, R402); one that fails its CRC-32C is dropped. -/
def State.partnerReport (s : State) (b : List Byte) : State :=
  let b := bytesAt b 0 32
  if (crc32c (bytesAt b 0 28)).toNat ≠ natAt b 28 4 then s
  else s.umpAll 8 [⟨natAt b 0 2, natAt b 2 2, natAt b 4 2, false, natAt b 8 8⟩]

/-- FAULT_REPORT_RECEIVE (R402). -/
def execFaultReportReceive (report : List Byte) (s : State) : Res := whileClocked s <| .next (s.partnerReport report)

/-- UMP_WINDOW_CLOSE (R402): 100 ms after a window opened; the AON timer stands no earlier than that. -/
def execUmpWindowClose (origin code : W16) (s : State) : Res :=
  whileClocked s <| match s.windowOf origin.toNat code.toNat with
  | none => .next s
  | some w =>
    let s := { s with aonMs := max s.aonMs (w.openedMs + 100) }
    let (s, bad) := s.closeWindow w
    .next (s.reportTiles bad)

/-! ## Delivery, forwarding and folding (R395, R396) -/

/-- A frame delivered to this formatter (R391): a report, a receipt, a team frame or a message. Ring control comes with its own
commands. -/
def State.deliverFrame (s : State) (p : Port) (h b : List Byte) : State :=
  let cls := fhClass h
  if cls = 1 then s.partnerReport b
  else if cls = 2 then s.takeReceipt (BitVec.ofNat 16 (natAt b 0 2)) (BitVec.ofNat 16 (natAt b 2 2))
  else if 0x10 ≤ cls ∧ cls < 0x40 then s.teamFrame p h b
  else if 0x40 ≤ cls then s.messageIn p h b
  else s

/-- A frame discarded at a second fold edge (R396): its source is told, unless it was a receipt or a broadcast. A frame of this
formatter's own is told here. -/
def State.foldDiscard (s : State) (p : Port) (h : List Byte) : State :=
  if fhClass h = 2 ∨ fhDst h = 0xFFFF then s
  else if fhSrc h = s.devId then s.takeReceipt (BitVec.ofNat 16 (fhMsg h)) St.BAD_PARAM
  else s.receiptTo p (fhSrc h) (fhMsg h) St.BAD_PARAM

/-- A frame that came in on a port goes out of the other, or, where that is a fold edge, back by the port it came on, or nowhere
when it has been turned before (R395, R396). -/
def State.forward (s : State) (p : Port) (folded : Bool) (hops : Nat) (h b : List Byte) : State :=
  let q := Port.opp p
  if !(s.rport q).foldEdge then s.ringPut q folded (hops + 1) h b
  else if folded then s.foldDiscard p h
  else if (s.rport p).foldEdge then s.foldDiscard p h
  else s.ringPut p true (hops + 1) h b

/-- A frame the link has accepted (R395, R396). -/
def State.routeFrame (s : State) (p : Port) (f : RingFrame) : State :=
  let h := f.header
  let fold := lwFolded f.link
  let hops := lwHops f.link
  if fhSrc h = s.devId then s
  else if fhDst h = s.devId then s.deliverFrame p h f.payload
  else if fhDst h = 0xFFFF then
    let key := (fhSrc h, fhMsg h, fhOff h)
    let s := if s.rng.seen.contains key then s
      else ({ s with rng := { s.rng with seen := s.rng.seen ++ [key] } }).deliverFrame p h f.payload
    s.forward p fold hops h f.payload
  else s.forward p fold hops h f.payload

/-- A frame whose check fails is NAKed (R392); one on its way past this formatter has begun to leave and ends with a stomp block
(R395).
DEDUCED: log entry 54. -/
def State.badFrame (s : State) (p : Port) (f : RingFrame) (passing : Bool) : State :=
  let s := s.setRport p { s.rport p with nakDue := true }
  let q := Port.opp p
  if passing && fhDst f.header != s.devId && fhSrc f.header != s.devId && !(s.rport q).foldEdge then
    let (s, blocks) := s.laneControl q Config.stompBlock
    (s.emit (.stomp q blocks)).bump F.RNG_CNT.STOMPS
  else s

/-- An acknowledgement that comes in, and the resend that it may ask for (R392). -/
def State.ackIn (s : State) (p : Port) (ack : Option Nat) (nak : Bool) : State :=
  let s := match ack with
    | some n => (s.takeAck p n).endBroadcasts
    | none => s
  if nak then s.resend p else s

/-- What a link word acknowledges (R390, R392). -/
def State.linkIn (s : State) (p : Port) (w : W64) : State :=
  s.ackIn p (if lwAckValid w then some (lwAck w) else none) (lwNak w)

/-- ACK_BLOCK (R392): an acknowledgement block leaves where one is due, or one comes in, with the sequence it expects and whether it
is a NAK. -/
def execAckBlock (p : Port) (rx : Option (BitVec 12 × Bool)) (s : State) : Res :=
  whileClocked s <| .next (match rx with
    | none => s.sendAck p
    | some (n, nak) => if s.portUp p then s.ackIn p (some n.toNat) nak else s)

/-- RING_FRAME_RECEIVE (R392, R394 to R396). -/
def execRingFrameReceive (p : Port) (f : RingFrame) (s : State) : Res :=
  whileClocked s <| if !s.portUp p then .next s
  else if !lwOk f.link then .next (s.badFrame p f false)
  else
    let s := s.linkIn p f.link
    if !frameOk f then .next (s.badFrame p f true)
    else if lwSeq f.link ≠ (s.rport p).expect then .next s
    else
      let r := s.rport p
      let s := s.setRport p { r with expect := (r.expect + 1) % 4096, ackDue := true }
      .next (s.routeFrame p f)

/-! ## The lives of a port (R389, R397, R398) -/

/-- A kept frame resent through the fold path (R397). -/
def State.refold (s : State) (p : Port) (f : OutFrame) : State :=
  let q := Port.opp p
  if f.folded || (s.rport q).foldEdge then s.foldDiscard q f.header else s.ringPut q true f.hops f.header f.payload

/-- FOLD_EDGE (R397): a port whose link is down or parked, or trains again after it was, becomes a fold edge; what it had not seen acknowledged goes by the fold
path, and a link that went down without PARK is reported lost. -/
def execFoldEdge (p : Port) (s : State) : Res :=
  whileClocked s <|
  let r := s.rport p
  let st := s.portState p
  if r.foldEdge ∨ st = PortSt.up then .next s
  else
    let s := s.setRport p { r with foldEdge := true, unacked := [], held := [] }
    let s := s.bump F.RNG_CNT.FOLDS
    let s := s.each (r.unacked ++ r.held) fun s f => s.refold p f
    .next (if st = PortSt.down then
        s.reportOf (s.fld (nbrField p)) 0x0401 (match p with
          | .east => 0
          | .west => 1)
      else s)

/-- PARK (R389). -/
def execPark (p : Port) (s : State) : Res :=
  whileClocked s <| .next (if s.portState p = PortSt.up then s.setFld (portField p) PortSt.parked else s)

/-- An ID clash (R398): the link is down, and the clash is reported.
DEDUCED: log entry 56. -/
def State.idClash (s : State) (p : Port) (serial : W64) : State :=
  ((s.setFld (portField p) PortSt.down).raise F.RNG_STAT.ID_CLASH).report 0x0402 serial.toNat

/-- HELLO (R398): at the exchange of a port that is not up and whose EN is 1 it is accepted, and the port stops being a fold edge,
or it clashes; a port that was parked or down and is a fold edge trains anew and answers with its own (R399). On a link that is up
a HELLO is a broadcast, which clashes when another serial has this formatter's ID.
DEDUCED: log entry 56. -/
def execHello (p : Port) (id : W16) (serial : W64) (s : State) : Res :=
  whileClocked s <|
  let me := s.devId
  let st := s.portState p
  let training := st == PortSt.training
  if s.flag (enField p) ∧ (training ∨ ((st = PortSt.parked ∨ st = PortSt.down) ∧ (s.rport p).foldEdge)) then
    let s := if training then s else s.sendHello p
    if id.toNat = me ∨ id = 0 ∨ id = 0xFFFF ∨ me = 0 ∨ me = 0xFFFF then .next (s.idClash p serial)
    else
      let s := (s.setFld (portField p) PortSt.up).setFld (nbrField p) id.toNat
      .next (s.setRport p { foldEdge := false })
  else if st = PortSt.up ∧ id.toNat = me ∧ serial ≠ Config.serial then .next (s.idClash p serial)
  else .next s

/-- JOIN (R391): the spec names this ring-control frame and gives it no further effect. -/
def execJoin (_p : Port) (_f : RingFrame) (s : State) : Res := whileClocked s <| .next s

/-- A write of 1 to a port's EN (R398): the link trains and this formatter's HELLO goes out. A port whose EN is 1 stays as it is
while it is up or trains, and trains anew once its link went down or was parked and it is a fold edge. -/
def State.portOn (s : State) (p : Port) : State :=
  let st := s.portState p
  if s.flag (enField p) && !((st == PortSt.parked || st == PortSt.down) && (s.rport p).foldEdge) then s
  else ((s.setFlag (enField p) true).setFld (portField p) PortSt.training).sendHello p

/-- A port sends PARK where its link is up, and parks (R398, R437). -/
def State.parkPort (s : State) (p : Port) : State :=
  let s := if s.portState p = PortSt.up then s.sendPark p else s
  s.setFld (portField p) PortSt.parked

/-- A write of 0 to a port's EN (R398). -/
def State.portOff (s : State) (p : Port) : State :=
  if s.flag (enField p) then (s.setFlag (enField p) false).parkPort p else s

/-! ## Serve, sent (R400) -/

/-- The target ID and the hops left of a serve pattern, as its CRC-8 runs over them (R400). -/
def serveBytes (id hops : Nat) : List Byte := (leBytes 2 id).reverse ++ leBytes 1 hops

/-- The 86 cells of a serve pattern (R400). -/
def serveCells (id hops : Nat) : List Bool :=
  let b := serveBytes id hops
  (List.range 16).map (fun k => k % 2 == 0) ++ [true, true, true, false, false, false] ++
    (msbBits (b ++ [crc8 b])).flatMap fun x => [x, !x]

/-- Frames that waited while the ports were stopped leave (R404). -/
def State.ringGo (s : State) : State :=
  s.each [Port.east, Port.west] fun s p => s.releaseHeld p (s.rport p).held

/-- A write of 1 to GO (R400): the pattern REPEAT times from PORT, refused unless that port's link is down or parked.
DEDUCED: log entry 56. -/
def State.serveGo (s : State) : State :=
  let p := if s.flag F.RNG_SERVE.PORT then Port.west else Port.east
  if s.portState p ≠ PortSt.parked ∧ s.portState p ≠ PortSt.down then s.raise F.RNG_STAT.SERVE_REFUSED
  else
    s.each (List.range (max 1 (s.fld F.RNG_SERVE.REPEAT))) fun s _ =>
      s.emit (.serve p (serveCells (s.fld F.RNG_SERVE.SERVE_ID) (s.fld F.RNG_SERVE.HOPS)))

end Sys2Proof.Machine
end

