-- ==== Sys2Proof/Machine/Start.lean ====
section
/-!
DEFINITION. A start (R459, R471): what survives it (R472), what the ROM does at S0 (R461), and how each boot step begins.
-/
namespace Sys2Proof.Machine

/-! ## What survives (R472) -/

/-- The registers held in the AON domain: PWR, SMP and `KEY_CTL`. -/
def aonReg (a : Nat) : Bool := (decide (0x100000 ≤ a) && decide (a < 0x110000)) || a == 0xA01000

/-- What the reset of the formatter die does at its balls: writer links stop, and the motion link lets go (R483, R484). -/
def State.linksStop (s : State) : State :=
  let s := if s.flag F.WRC_STAT.WRITING then s.emit .writerLinksOff else s
  if s.flag F.MOT_CTL.LINK_EN then s.emit .motionReleased else s

/-- The machine after the reset of the formatter die: the Start column of R472, before anything is loaded. -/
def State.startKept (s : State) : State :=
  let s := s.linksStop
  let t : State :=
    { State.reset with
      pending := s.pending
      regs := s.regs.filter fun (e : Nat × W32) => aonReg e.1
      aon := s.aon
      aonMs := s.aonMs
      out := s.out
      freeCtr := s.freeCtr
      pwr := { s.pwr with trans := .none, qdrDropped := false, peWake := false }
      boot :=
        { vinGood := s.boot.vinGood
          vioGood := s.boot.vioGood
          held := s.boot.held
          recIndex := s.boot.recIndex
          flash := s.boot.flash
          mirrorNext := s.boot.mirrorNext
          floorRaised := s.boot.floorRaised }
      hst := { perstHigh := s.hst.perstHigh }
      wrc := { shockLow := s.wrc.shockLow } }
  (t.setFld F.PWR_STAT.STATE 0).setFld F.PWR_STAT.LATCHED 0

/-- The machine after a loss of VIN: the VIN column of R472. -/
def State.vinKept (s : State) : State :=
  let s := s.linksStop
  { State.reset with
    pending := s.pending
    out := s.out
    freeCtr := s.freeCtr
    boot :=
      { vinGood := s.boot.vinGood
        vioGood := s.boot.vioGood
        flash := s.boot.flash
        mirrorNext := s.boot.mirrorNext
        floorRaised := s.boot.floorRaised }
    hst := { perstHigh := s.hst.perstHigh }
    wrc := { shockLow := s.wrc.shockLow } }

/-! ## S0 (R461) -/

/-- Whether the journal header in AON memory is valid. -/
def State.journalOk (s : State) : Bool :=
  let b := s.aonBytes 0 64
  natAt b 0 4 == 0x4C4E524A && natAt b 4 2 == 1 && crc60Ok b && decide (natAt b 12 1 < 62)

/-- The slots of the mirror that hold anything, oldest first. -/
def State.mirrorSlots (s : State) : List Nat :=
  let l := ((s.boot.flash.map fun (e : Nat × Byte) => e.1 / 64).filter fun i => decide (i < 4096)).eraseReps
  (l.filter fun i => decide (s.boot.mirrorNext ≤ i)) ++ l.filter fun i => decide (i < s.boot.mirrorNext)

/-- The valid record of the mirror with the highest start number; of records of one start, the one appended last.
DEDUCED: log entry 67. -/
def State.mirrorRecord (s : State) : List Byte :=
  (s.mirrorSlots.map fun i => s.flashBytes (64 * i) 64).foldl
    (fun best r => if crc60Ok r ∧ natAt best 0 4 ≤ natAt r 0 4 then r else best) []

/-- The record that S0 takes: the latest of AON memory, or else of the mirror. With none it has no bytes. -/
def State.takenRecord (s : State) : List Byte :=
  let r := s.aonBytes (recordAddr (natAt (s.aonBytes 0 64) 12 1)) 64
  if s.journalOk && crc60Ok r then r else s.mirrorRecord

/-- Steps that a record shows begun, not done and not interrupted. -/
def hung (r : List Byte) : BitVec 9 :=
  BitVec.ofNat 9 (natAt r 6 2) &&& ~~~(BitVec.ofNat 9 (natAt r 8 2)) &&& ~~~(BitVec.ofNat 9 (natAt r 10 2))

/-- STICKY as S0 leaves it (R461): the header's, or where AON memory is lost the alternates of the record taken, with a bit for
every hung step.
DEDUCED: log entry 67. -/
def State.stickyAtS0 (s : State) (r : List Byte) : BitVec 9 :=
  BitVec.ofNat 9 (if s.journalOk then natAt (s.aonBytes 0 64) 6 2 else natAt r 12 2) ||| hung r

/-- The journal header written, STICKY with it (R460). -/
def State.putHeader (s : State) (sticky : BitVec 9) : State :=
  (s.aonStore 0 (journalHeader sticky.toNat s.startNo s.boot.recIndex)).setFld F.BOOT_ALT.STICKY sticky.toNat

/-- A start of a reset kind (R459 to R461): its record opened, STICKY taken up, and S0 begun. -/
def State.bootS0 (s : State) (kind : Nat) : State :=
  let r := s.takenRecord
  let sticky := s.stickyAtS0 r
  let idx := if s.journalOk then (natAt (s.aonBytes 0 64) 12 1 + 1) % 62 else 0
  let s := { s with boot := { s.boot with recIndex := idx, prev := r, held := none } }
  let s := s.putRecord (leBytes 4 (natAt r 0 4 + 1) ++ leBytes 1 kind ++ leBytes 59 0)
  ((s.putHeader sticky).setFld F.BOOT_STAT.KIND kind).markBegun 0

/-- A start (R471): the formatter die is reset, and S0 begins, or waits for VIO (R481). A trigger enabled at reset that holds enters
write inhibit (R170). -/
def State.startNow (s : State) (kind : Nat) : State :=
  let s := s.startKept
  let kind := s.boot.held.getD kind
  if s.boot.vioGood then (s.bootS0 kind).checkTriggers else { s with boot := { s.boot with held := some kind } }

/-! ## How a step begins (R459) -/

/-- The dies that a bit mask names. -/
def diesOf (mask : Nat) : List Nat := (List.range 4).filter fun d => mask.testBit d

/-- S2 begins: on its alternate the dies mapped out before, and the one that was under test in a hung S2, are mapped out (R459);
which die is under test first is open. -/
def State.beginS2 (s : State) : State :=
  let s := s.markBegun 2
  let d := natAt s.boot.prev 24 4
  let out := if s.altApplied 2 then
      (d / 16 % 16).lor (if (hung s.boot.prev).getLsbD 2 then 2 ^ (d % 4) else 0)
    else 0
  let on := 15 - out
  let s := (s.setFld F.TIL_SIZE.DIES on).setFld F.TIL_SIZE.TILES (16384 * (diesOf on).length)
  let test := (diesOf on).getD ((Config.freeW64 s.freeCtr).toNat % max 1 (diesOf on).length) 0
  (s.setDetail 2 (test + 16 * out)).nextFree

/-- S5 begins: the ports train with the ID and enables of the calibration record, or on the alternate not at all. -/
def State.beginS5 (s : State) : State :=
  let s := s.markBegun 5
  match s.altApplied 5, s.calCopy with
  | false, some a =>
    let s := s.setFld F.RNG_CTL.ID (s.flashNat (a + 12) 2)
    let en := s.flashNat (a + 14) 1
    let s := if en.testBit 0 then s.portOn .east else s
    if en.testBit 1 then s.portOn .west else s
  | _, _ => s

/-- The zone memories loaded from the copy of the calibration record at an address, where its tables are valid (R468). -/
def State.loadZones (s : State) (a : Nat) : State :=
  if (s.flashNat (a + 6) 2).testBit 0 then
    s.each (List.range 32768) fun s k =>
      s.setReg (zoneAddr (k / 512) 0 + 4 * (k % 512)) (BitVec.ofNat 32 (s.flashNat (a + 1024 + 4 * k) 4))
  else s

/-- What S6 takes from the copy of the calibration record at an address (R468). -/
def State.loadAfe (s : State) (a : Nat) : State :=
  let d := s.flashNat (a + 15) 1
  let s := if d.testBit 7 then s.goDark (d % 16) else s
  let s := (s.loadReg (F.WRC_GAP_FWD.GAP.addr 0) (s.flashNat (a + 16) 4)).loadReg (F.WRC_GAP_REV.GAP.addr 0)
    (s.flashNat (a + 20) 4)
  let s := s.each (List.range 64) fun s c =>
    (s.loadReg (F.WRC_IW.IW.addr c) (s.flashNat (a + 24 + 4 * c) 4)).loadReg (F.WRC_PC.PC1.addr c)
      (s.flashNat (a + 280 + 4 * c) 4)
  s.loadZones a

/-- The alternate of S6 for the groups in progress of the record taken (R461): the lowest becomes dark unless a dark group is
named; the others run on their reset values. -/
def State.giveUp (s : State) (gs : List Nat) : State :=
  let s := match gs with
    | g :: _ => if s.flag F.RDC_CFG.DARK_EN then s else (s.goDark g).setBit F.RDC_CAL_FAIL.CAL_FAILED g true
    | [] => s
  s.each (gs.filter fun g => s.darkGroup != some g) fun s g =>
    let s := s.setBit F.RDC_CAL_FAIL.CAL_FAILED g true
    s.each (groupChans g) fun s c => (s.useReset c).setFlag F.RDC_CH_CTL.CAL_DEFAULT true c

/-- Every loop is to close on the law loaded, once MOT runs (R195, R200). -/
def State.closeAll (s : State) : State :=
  let s := s.motOn
  if s.flag F.MOT_CTL.RUN then s.setClose 31 else s

/-- The law that S7 loads (R459, R468): of the calibration record where it is valid, on the alternate the conservative law of the
boot image. -/
def State.lawLoaded (s : State) : State :=
  if s.sticky 7 then (s.loadLaw s.boot.law).setDetail 7 1
  else match s.calCopy with
    | some a => if (s.flashNat (a + 6) 2).testBit 1 then s.loadLaw (s.flashBytes (a + 132096) 4224) else s
    | none => s

/-- S7 begins: its law is loaded and every loop closes from it.
DEDUCED: log entry 72. -/
def State.beginS7 (s : State) : State := (s.markBegun 7).lawLoaded.closeAll

/-- The groups under calibration in S6, as RDC and the journal show them: those in progress beside those given up (R461). -/
def State.showCalib (s : State) : State :=
  let given := if s.altApplied 6 then natAt s.boot.prev 40 2 else 0
  let now := s.calib.foldl (fun m g => m.lor (2 ^ g)) given
  (s.setFlag F.RDC_STAT.CAL_BUSY (!s.calib.isEmpty)).setDetail 6 (now + s.stepDetail 6 / 65536 * 65536)

/-- S6 goes on (R148, R459): once the scout quarter is calibrated S7 begins, and quarter after quarter follows. -/
def calSettle : Nat → State → State
  | 0, s => s
  | n + 1, s =>
    if !s.calib.isEmpty then s
    else
      let s := if s.boot.calLeft.length < 4 && !s.stepBegun 7 then s.beginS7 else s
      match s.boot.calLeft with
      | [] => s
      | gs :: rest => calSettle n ({ s with calib := gs, boot := { s.boot with calLeft := rest } }).showCalib

/-- A group's calibration in boot step S6 (R148): the first failing group becomes the dark group where none is set; the journal
notes it, and S6 goes on. -/
def State.calInBoot (s : State) (g : Nat) (ok : Bool) : State :=
  let s := if ok then s.calFlags g true
    else
      let s := if s.flag F.RDC_CFG.DARK_EN then s.calFlags g false
        else (s.calMarks g false).goDark g
      s.setDetail 6 ((s.stepDetail 6).lor (2 ^ (16 + g)))
  calSettle 5 s.showCalib

/-- CALIBRATION_DONE (R147 to R149): a group's calibration ends; outside boot its running channels restart. -/
def execCalibrationDone (grp : Group) (ok : Bool) (s : State) : Res := whileClocked s <|
  let g := grp.val
  if !s.calib.contains g then .next s
  else
    let s := { s with calib := s.calib.erase g }
    let s := s.setFlag F.RDC_STAT.CAL_BUSY (!s.calib.isEmpty)
    if s.inStep 6 then .next (s.calInBoot g ok)
    else
      let s := s.calFlags g ok
      .next (s.each (groupChans g) fun s c =>
        let s := s.setRchan c { s.rchan c with calStop := false, calOff := false }
        if s.chanOn c then s.startChan c else s)

/-- S6 begins (R148, R459, R461): the scout quarter's groups, then quarters 3 down to 0 without it. -/
def State.beginS6 (s : State) : State :=
  let s := s.markBegun 6
  let s := match s.calCopy with
    | some a => s.loadAfe a
    | none => s
  let given := if s.altApplied 6 then natAt s.boot.prev 40 2 else 0
  let s := s.giveUp ((List.range 16).filter fun g => given.testBit g)
  let q := s.scoutQuarter
  let order := q :: [3, 2, 1, 0].filter (· != q)
  let left := order.map fun k => [4 * k, 4 * k + 1, 4 * k + 2, 4 * k + 3].filter fun g => !given.testBit g
  calSettle 6 { s with boot := { s.boot with calLeft := left } }

/-- Step Sn begins, S4 only once PERST_N is high (R459). -/
def State.stepBegin (s : State) (n : Nat) : State :=
  match n with
  | 2 => s.beginS2
  | 4 => if s.hst.perstHigh then s.markBegun 4 else s
  | 5 => s.beginS5
  | 6 => s.beginS6
  | 7 => s.beginS7
  | n => s.markBegun n

end Sys2Proof.Machine
end

