-- ==== Sys2Proof/Machine/Store.lean ====
section
/-!
DEFINITION. Commands of TIL, POOL and QUE themselves: the scrubber's visits (R257, R258), and starting and stopping POOL
(R261) and a queue (R268, R499).
-/
namespace Sys2Proof.Machine

/-- Whether a tile belongs to an allocated buffer. -/
def State.tileAllocated (s : State) (t : Nat) : Bool :=
  (List.range 8).any fun c =>
    let b := s.fld F.POOL_CLASS.BASE c
    s.flag F.POOL_CLASS.EN c && decide (b ≤ t) && decide ((t - b) / classTiles c < s.fld F.POOL_COUNT.COUNT c) &&
      (s.buf c ((t - b) / classTiles c)).owner != Owner.none

/-- Whether the scrubber visits a tile (R257): closed, strong, not poisoned, of an allocated buffer. -/
def State.scrubs (s : State) (t : Nat) : Bool :=
  (s.tileRec t).fill == 4096 && s.strong t && !(s.tileRec t).poison && s.tileAllocated t

/-- The first tile at or above `lo` that the scrubber visits. -/
def State.nextScrub (s : State) (lo : Nat) : Option Nat :=
  (List.find? (fun e : Nat × TileRec => decide (lo ≤ e.1) && decide (e.1 < s.tileCount) && s.scrubs e.1) s.tiles).map fun e => e.1

/-- One visit of a tile. -/
def State.scrubTile (s : State) (t : Nat) : State :=
  let (s, v) := s.verifyTile t
  let s := { s with scrubAt := t + 1, scrubCount := s.scrubCount + 1 }
  if v = .uncorrectable then s.report 0x0801 t else s

/-- A wrap of the scrubber (R258). -/
def State.scrubWrap (s : State) : State :=
  let s := (s.setFld F.TIL_SCRUB.LAP_MS (s.aonMs - s.lapStartMs)).setFld F.TIL_SCRUB1.LAP_TILES s.scrubCount
  { s with scrubAt := 256, scrubCount := 0, lapStartMs := s.aonMs }

/-- The power states, as `PWR_STAT` shows them. -/
def State.pstate (s : State) : Nat := s.fld F.PWR_STAT.STATE

/-- SCRUB_VISIT (R257): the scrubber verifies the next closed strong tile, wrapping past the last; it runs only in RUN and
IDLE, while SCRUB_EN is 1. -/
def execScrubVisit (s : State) : Res :=
  if !s.flag F.TIL_CTL.SCRUB_EN ∨ 1 < s.pstate then .next s
  else match s.nextScrub s.scrubAt with
    | some t => .next (s.scrubTile t)
    | none =>
      let s := s.scrubWrap
      match s.nextScrub 256 with
      | some t => .next (s.scrubTile t)
      | none => .next s

end Sys2Proof.Machine
end

