-- ==== Sys2Proof/Machine/Power.lean ====
section
/-!
DEFINITION. Power states (R434 to R450): idleness, entry, wake sources and their races, exit, and what NAP keeps; the serve
pattern as AON decodes it (R400, R448); and the AON clock (R17).
-/
namespace Sys2Proof.Machine

/-! ## Conditions (R435, R437) -/

/-- A power state's code in `PWR_STAT`. -/
def pstateCode : PState → Nat
  | .run => 0
  | .idle => 1
  | .doze => 2
  | .nap => 3
  | .off => 4

/-- The power state with a code. -/
def pstateOf (n : Nat) : PState :=
  match n with
  | 1 => .idle
  | 2 => .doze
  | 3 => .nap
  | 4 => .off
  | _ => .run

/-- Whether the tape is stopped (R24): at the latest motion tick its speed is 0 and neither reel turns. -/
def State.tapeStopped (s : State) : Bool := s.livePort 5 == 0 && s.livePort 8 == 0 && s.livePort 9 == 0

/-- Whether a core waits in WAIT. -/
def Core.waits (c : Core) : Bool :=
  match c.stall with
  | .wait _ _ => true
  | _ => false

/-- Whether every core that runs waits in WAIT at an idle level of at least `n`. -/
def State.coresWait (s : State) (n : Nat) : Bool :=
  s.cores.all fun e => e.2.run != .running || (e.2.waits && decide (n ≤ e.2.level))

/-- Whether no engine of any block has a command queued or in progress: no completion entry is due, no group is being calibrated and
no program loaded. -/
def State.enginesIdle (s : State) : Bool :=
  (s.hst.waiting.all fun w => !w.due) && s.calib.isEmpty && !s.flag F.CORE_LOAD_STAT.BUSY &&
  s.accepted.all (fun (e : Nat × List Cmd) => e.2.isEmpty) && s.held.isEmpty && s.fmt.jobs.isEmpty && s.fmt.seals.isEmpty &&
    s.rng.sending.isEmpty && s.rng.posted.isEmpty && s.rng.reasm.isEmpty && s.team.chains.isEmpty && s.team.leaks.isEmpty

/-- Whether no frame waits on a ring port for leave or acknowledgement. -/
def State.ringIdle (s : State) : Bool :=
  s.rng.east.unacked.isEmpty && s.rng.east.held.isEmpty && s.rng.west.unacked.isEmpty && s.rng.west.held.isEmpty

/-- The formatter is idle (R435). -/
def State.idle (s : State) : Bool :=
  s.tapeStopped && s.coresWait 1 && s.enginesIdle && s.postedItems == 0 && s.ringIdle

/-- Whether QDR is to be retained in NAP (R443). -/
def State.qdrRetain (s : State) : Bool := s.fld F.PWR_CTL.QDR_POL != 1

/-- The buffer of the NAP image. -/
def State.napHandle (s : State) : W32 := BitVec.ofNat 32 (s.fld F.PWR_NAPIMG.HANDLE)

/-- Bytes of the NAP image (R445). -/
def napImageBytes : Nat := 4718592

/-- Whether `PWR_NAPIMG` names a class 6 buffer in a strong region. -/
def State.napBufferOk (s : State) : Bool :=
  let h := s.napHandle
  hClass h == 6 && (s.checkUse h 0 napImageBytes 1 none).isNone && (List.range 16).all fun k => s.strong (s.bufTile h + 256 * k)

/-- Whether the link is in L2 or L3, or down (R385): not in L0 or L1. -/
def State.linkQuiet (s : State) : Bool := !s.flag F.HST_STAT.LINK_UP

/-- Whether ring ports allow DOZE and deeper: while RING_KEEP is 1, none is up. -/
def State.ringAllows (s : State) : Bool :=
  !s.flag F.PWR_CTL.RING_KEEP || (s.portState .east != PortSt.up && s.portState .west != PortSt.up)

/-- Whether no core has a transaction: txs ACTIVE. -/
def State.noTx (s : State) : Bool := s.cores.all fun e => e.2.depth == 0

/-- Whether the conditions for a state hold: R435, and R437 beyond it; OFF too keeps to RING_KEEP, which lets nothing as deep as DOZE
or deeper be entered while a port is up, and to R385. -/
def State.maySleep (s : State) (p : PState) : Bool :=
  match p with
  | .run => false
  | .idle => s.idle
  | .doze => s.idle && s.coresWait 2 && s.ringAllows
  | .nap => s.idle && s.coresWait 2 && s.ringAllows && s.linkQuiet && s.noTx && (!s.qdrRetain || s.napBufferOk)
  | .off => s.idle && !s.flag F.WRC_STAT.WRITING && s.cores.all (fun e => e.2.run != .running) && s.ringAllows && s.linkQuiet

/-! ## Wake log (R452) -/

/-- A wake log entry: state left, state entered, sources, flags.
DEDUCED: log entry 64. -/
def State.wakeLog (s : State) (left entered sources flags : Nat) : State :=
  let h := s.fld F.PWR_STAT.WLOG_HEAD
  let b := leBytes 4 s.aonMs ++ leBytes 1 left ++ leBytes 1 entered ++ leBytes 2 sources ++ leBytes 1 flags ++ leBytes 7 0
  (s.aonStore (0x1000 + 16 * h) b).setFld F.PWR_STAT.WLOG_HEAD ((h + 1) % 64)

/-- A sleep request that is latched, 1 to 4; 0 without one. -/
def State.latchedSleep (s : State) : Nat := let l := s.fld F.PWR_STAT.LATCHED; if l = 7 then 0 else l

/-- The latched request dropped. -/
def State.unlatch (s : State) : State := s.setFld F.PWR_STAT.LATCHED 0

/-! ## Entry (R436 to R440) -/

/-- Whether a transition is in progress. -/
def State.inTransition (s : State) : Bool := s.pwr.trans != .none

/-- The state with the power controller's transition replaced. -/
def State.setTrans (s : State) (t : Transition) : State := { s with pwr := { s.pwr with trans := t } }

/-- The ring ports that are up park, unless RING_KEEP is 1 (R437). -/
def State.parkRing (s : State) : State :=
  if s.flag F.PWR_CTL.RING_KEEP then s
  else s.each [Port.east, Port.west] fun s p => if s.portState p = PortSt.up then s.parkPort p else s

/-- A sleep begins: IDLE is entered in that cycle; a deeper entry parks the ports and goes on. -/
def State.beginSleep (s : State) (p : PState) : State :=
  let s := s.unlatch
  match p with
  | .run => s
  | .idle => s.setFld F.PWR_STAT.STATE 1
  | p => s.parkRing.setTrans (.entering p)

/-- A latched sleep request is acted on when no transition is in progress and its conditions hold; one for the current state or a
shallower one is dropped (R438, R450). -/
def State.actOnLatched (s : State) : State :=
  let n := s.latchedSleep
  if n = 0 ∨ s.inTransition then s
  else if n ≤ s.pstate then s.unlatch
  else if s.maySleep (pstateOf n) then s.beginSleep (pstateOf n)
  else s

/-- A sleep request, by command or by timer (R438, R450). -/
def State.sleepFor (s : State) (n : Nat) : State :=
  if s.inTransition then
    if s.fld F.PWR_STAT.LATCHED = 7 then s.wakeLog s.pstate s.pstate 0 4
    else (s.setFld F.PWR_STAT.LATCHED n).wakeLog s.pstate s.pstate 0 2
  else if n ≤ s.pstate then s
  else if s.maySleep (pstateOf n) then s.beginSleep (pstateOf n)
  else (s.setFld F.PWR_STAT.LATCHED n).wakeLog s.pstate s.pstate 0 2

/-- A write of GO with TARGET (R438). -/
def State.sleepGo (s : State) (target : Nat) : State :=
  if target = 0 then (if s.latchedSleep = 0 then s else s.unlatch)
  else if 4 < target then s.raise F.PWR_STAT.CMD_REFUSED
  else s.sleepFor target

/-- SLEEP_REQUEST_TIMEOUT (R438): 10 ms have passed with its conditions not holding. -/
def execSleepRequestTimeout (s : State) : Res :=
  .next (if s.latchedSleep = 0 ∨ s.inTransition then s else s.unlatch.raise F.PWR_STAT.CMD_REFUSED)

/-- The period of an idle timer. -/
def State.idleTimer (s : State) (t : Nat) : Nat :=
  match t with
  | 0 => s.fld F.PWR_T1.T1
  | 1 => s.fld F.PWR_T2.T2
  | _ => s.fld F.PWR_T3.T3

/-- Whether the timer of a state may enter it (R436). -/
def State.timerOn (s : State) (t : Nat) : Bool := s.flag F.PWR_CTL.AUTO && s.idleTimer t != 0

/-- IDLE_TIMER_EXPIRY (R436): idle time has reached T1, T2 or T3. A state whose conditions do not hold is entered by its own
command once they do. -/
def execIdleTimerExpiry (t : Fin 3) (s : State) : Res :=
  if !s.timerOn t || !s.idle then .next s
  else if s.inTransition then .next (s.sleepFor (t + 1))
  else if t + 1 ≤ s.pstate then .next s
  else .next (if s.maySleep (pstateOf (t + 1)) then s.beginSleep (pstateOf (t + 1)) else s)

/-- The entry of a state begun where the event that enters it finds it not begun: its request is latched, or its timer has run
out, and its conditions hold. -/
def State.entryBegun (s : State) (p : PState) : State :=
  let asked := s.latchedSleep == pstateCode p || (p != .off && s.timerOn (pstateCode p - 1))
  if !s.inTransition && decide (s.pstate < pstateCode p) && asked && s.maySleep p then s.beginSleep p else s

/-- The entry of a state past its point of no return. -/
def State.entered (s : State) (p : PState) : State := (s.setFld F.PWR_STAT.STATE (pstateCode p)).setTrans (.closing p)

/-- DOZE_ENTRY (R440); the formatter never leaves RUN with the tape in motion (R24).
DEDUCED: log entry 60. -/
def execDozeEntry (s : State) : Res :=
  let s := s.entryBegun .doze
  .next (if s.pwr.trans = .entering .doze ∧ s.tapeStopped then s.entered .doze else s)

/-- What NAP entry writes (R439): every bound context, the NAP image with QDR retained where its buffer passes checks 1 to 3 of R264
(R265), and the saved registers. How the image and
the saved area are laid out is internal to the formatter, so their bytes are free.
DESIGN CHOICE: log entry 63. -/
def State.napWrite (s : State) : State :=
  let s := s.saveAllLanes
  let draw (s : State) (k : Nat) : Byte := Config.freeByte (2 ^ 40 * (s.freeCtr + 1) + k)
  let s := if s.qdrRetain && (s.checkUse s.napHandle 0 napImageBytes 1 none).isNone then
      (s.bufWrite s.napHandle 0 ((List.range napImageBytes).map (draw s)) false).nextFree
    else s
  { s with pwr := { s.pwr with saved := some s.freeCtr, qdrDropped := !s.qdrRetain } }.nextFree

/-- NAP_ENTRY (R24, R439).
DEDUCED: log entry 60. -/
def execNapEntry (s : State) : Res :=
  let s := s.entryBegun .nap
  .next (if s.pwr.trans = .entering .nap ∧ s.tapeStopped then (s.napWrite.entered .nap).bump F.PWR_CNT.NAPS else s)

/-- What OFF entry writes (R439): every bound context, and the saved registers; QDR is dropped, so there is no image.
DESIGN CHOICE: log entry 63. -/
def State.offWrite (s : State) : State :=
  let s := s.saveAllLanes
  { s with pwr := { s.pwr with saved := some s.freeCtr, qdrDropped := true } }.nextFree

/-- OFF_ENTRY (R24, R439, R446): the timeline of NAP without an image; the sampler stops and key slots 0 to 65 are zeroed. -/
def execOffEntry (s : State) : Res :=
  let s := s.entryBegun .off
  .next (if s.pwr.trans = .entering .off ∧ s.tapeStopped then { s.offWrite with keys := s.keys.clear 0 66 }.entered .off else s)

/-- QDR_DROP (R443): DROP_S seconds have passed in NAP under QDR_POL 0b10; a wake that has begun an exit keeps it. -/
def execQdrDrop (s : State) : Res :=
  if s.pstate = 3 ∧ s.fld F.PWR_CTL.QDR_POL = 2 ∧ s.pwr.trans ≠ .exiting .nap ∧ s.fld F.PWR_STAT.LATCHED ≠ 7 then
    .next { s with pwr := { s.pwr with qdrDropped := true } }
  else .next s

/-! ## Wakes (R447, R450) -/

/-- The sources that wake from a state, by its code (R447); an entry is undone by those of DOZE. -/
def wakeMask (n : Nat) : BitVec 10 :=
  match n with
  | 2 => 0x1FF
  | 3 => 0x0FF
  | 4 => 0x012
  | _ => 0x1EF

/-- A parked port whose EN is 1 trains again. -/
def State.retrain (s : State) : State :=
  s.each [Port.east, Port.west] fun s p =>
    if s.flag (enField p) && s.portState p == PortSt.parked then
      (s.setFld (portField p) PortSt.training).sendHello p
    else s

/-- Flag bit 2 of a wake log entry, where a wake cancels a latched sleep request.
DEDUCED: log entry 64. -/
def State.cancelBit (s : State) : Nat := if s.latchedSleep = 0 then 0 else 4

/-- A wake, in a state with no transition in progress. -/
def State.wakeStill (s : State) (src : Nat) : State :=
  let c := s.cancelBit
  let n := s.pstate
  if n = 0 then (if c = 0 then s else s.unlatch.wakeLog 0 0 src c)
  else
    let s := s.unlatch.setFld F.PWR_STAT.LAST_WAKE src
    let s := s.wakeLog n 0 src (c + (if s.pwr.qdrDropped then 8 else 0))
    match n with
    | 1 => s.setFld F.PWR_STAT.STATE 0
    | 4 => s.startNow 3
    | n => s.setTrans (.exiting (pstateOf n))

/-- An entry past its point of no return is complete; the exit of a wake latched meanwhile begins at once (R450). -/
def State.closeEntry (s : State) : State :=
  match s.pwr.trans with
  | .closing p =>
    if s.fld F.PWR_STAT.LATCHED = 7 then
      let s := s.unlatch
      if p = .off then s.startNow 3 else s.setTrans (.exiting p)
    else s.setTrans .none
  | _ => s

/-- A wake from sources that count in the present state (R447, R450). -/
def State.wakeFrom (s : State) (src : Nat) : State :=
  let c := s.cancelBit
  match s.pwr.trans with
  | .none => s.wakeStill src
  | .entering _ =>
    let s := (s.unlatch.setFld F.PWR_STAT.LAST_WAKE src).wakeLog s.pstate 0 src (1 + c)
    let s := ((s.setFld F.PWR_STAT.STATE 0).raise F.PWR_STAT.ABANDONED).bump F.PWR_CNT.ABANDON_CNT
    (s.setTrans .none).retrain
  | .closing _ =>
    if s.fld F.PWR_STAT.LATCHED = 7 then s
    else
      let s := (s.setFld F.PWR_STAT.LATCHED 7).setFld F.PWR_STAT.LAST_WAKE src
      s.wakeLog s.pstate 0 src (2 + c + (if s.pwr.qdrDropped then 8 else 0))
  | .exiting _ => if c = 0 then s else s.unlatch.wakeLog s.pstate 0 src c

/-- A wake from one or several sources at once.
DEDUCED: log entry 61. -/
def State.wakeBy (s : State) (sources : BitVec 10) : State :=
  let n := match s.pwr.trans with
    | .entering _ => 2
    | _ => s.pstate
  let src := (sources &&& wakeMask n).toNat
  if src = 0 then s else s.wakeFrom src

/-- Whether the formatter is in RUN with no transition in progress. -/
def State.inRun (s : State) : Bool := s.pstate == 0 && !s.inTransition

/-- What the formatter does of itself wakes it where it is not in RUN (R447). -/
def State.roused (s : State) (sources : BitVec 10) : State := if s.inRun then s else s.wakeBy sources

/-- WAIT_RETURN (R301): a waiting core returns on a masked event, or, `timeout`, when its timeout has passed, which runs while CPLL
does; in IDLE that wakes the formatter (R447). -/
def execWaitReturn (n : CoreId) (timeout : Bool) (s : State) : Res :=
  let c := s.core n
  whileClocked s <| match c.run, c.stall with
  | .running, .wait rd forever =>
    if s.evp c &&& c.evm ≠ 0 ∨ (timeout ∧ !forever) then
      let s := (s.roused 0x100).waitReturn n rd
      .next (s.setCore n (s.core n).advance)
    else .next s
  | _, _ => .next s

/-- TIMER_EVENT (R300): an armed TIMER has counted down to 0, which wakes the formatter from IDLE, DOZE or NAP (R447, R449); in OFF the
cores are lost. -/
def execTimerEvent (n : CoreId) (s : State) : Res :=
  let c := s.core n
  .next (if c.timer = 0 ∨ 3 < s.pstate then s
    else (s.setCore n { c with timer := 0, evEdge := c.evEdge ||| (1 <<< 8) }).roused 0x080)

/-- WAKE (R447). -/
def execWake (sources : BitVec 10) (s : State) : Res := .next (s.wakeBy sources)

/-! ## What NAP keeps (R444, R445, R472) -/

/-- Registers whose writable fields are saved at NAP entry (R444).
DEDUCED: log entry 62. -/
def napSaved (a : Nat) : Bool :=
  let inR (lo hi : Nat) : Bool := decide (lo ≤ a) && decide (a < hi)
  [0x300000, 0x400000, 0x40000C, 0x200000, 0x200004, 0x200008, 0x500010, 0x500018, 0x600004, 0x700000, 0x800000, 0x900000,
    0x900004, 0xA00000, 0xB00100, 0xD40000, 0xD40008, 0xD4000C, 0xD40010, 0xD40014, 0xE00000, 0xF00000, 0xF0000C, 0xF00010,
    0xF00014, 0xF00018, 0x1000000, 0x1000100, 0x1000110].contains a ||
    inR 0x300100 0x300140 || inR 0x610000 0x612000 || inR 0x700100 0x700140 || inR 0x800010 0x800030 || inR 0xC00000 0xD00000 ||
    (inR 0xD00000 0xD40000 && decide (a % 4096 < 2048)) || inR 0xF00020 0xF00038 || inR 0xF00800 0xF00820

/-- Registers held outside the die or that follow state that is kept: AON registers, `KEY_ALARM`, `TIL_SIZE`, and of BOOT the
identity, and STICKY, which stands in the journal; so do the marks of `BOOT_STAT`, though they are shown no more (R444).
DEDUCED: log entry 62. -/
def napHeld (a : Nat) : Bool :=
  aonReg a || [0xA01004, 0x800050, 0x0C, 0x10, 0x1C, 0x20].contains a

/-- Registers and memories whose contents the NAP image holds (R445): HST queue pairs, core run bits, RDC zone memories, MOT
program and stages. -/
def napImaged (a : Nat) : Bool :=
  let inR (lo hi : Nat) : Bool := decide (lo ≤ a) && decide (a < hi)
  inR 0x302000 0x304000 || inR 0x500100 0x500200 || (inR 0xD00000 0xD40000 && decide (2048 ≤ a % 4096)) ||
    inR 0xF00100 0xF00180 || inR 0xF01000 0xF02800

/-- Whether software writes a field: what a save of it keeps. -/
def Field.writable (f : Field) : Bool :=
  match f.acc with
  | .rw => true
  | .rws => true
  | .w1s => true
  | _ => false

/-- A register's word with its writable fields as they are and every other field at its reset value. -/
def writableOnly (a : Nat) (v : W32) : W32 :=
  match regAt a with
  | none => v
  | some r =>
    let m := (r.fields.filter Field.writable).foldl (fun m f => m ||| f.mask) 0
    (v &&& m) ||| (resetOf a &&& ~~~m)

/-- A register's word with its W1C, read-to-clear and RO fields at their reset values. -/
def settingsOnly (a : Nat) (v : W32) : W32 :=
  match regAt a with
  | none => v
  | some r =>
    let m := (r.fields.filter fun f => f.acc == .w1c || f.acc == .rc).foldl (fun m f => m ||| f.mask) 0
    (v &&& ~~~m) ||| (resetOf a &&& m)

/-- The register file after NAP: `image` says that the NAP image was restored. Counters and W1C fields of what the image holds read
their reset values too (R444, R472). -/
def napRegs (image : Bool) (m : SMap W32) : SMap W32 :=
  m.mapTo resetOf fun a v =>
    if a = 0x0C then v &&& 0xE1FFFFFF
    else if napHeld a then v
    else if image && napImaged a then settingsOnly a v
    else if napSaved a then writableOnly a v
    else resetOf a

/-- The formatter die after NAP, from its saved registers (R444): RUN of MOT 0, every loop open, pace EN 0, open umpire windows
discarded, the lock free, the scrubber at a new lap, ring ports down, the link down; what then asks for write inhibit has it (R170,
R173). -/
def State.dieRestored (s : State) (image : Bool) : State :=
  let s := { s with
    regs := napRegs image s.regs
    scrubAt := 256
    scrubCount := 0
    lapStartMs := s.aonMs
    load := {}
    lockEnd := none
    boot := { s.boot with napped := true }
    lanes := []
    slotLane := []
    rchans := []
    calib := []
    fmt := { s.fmt with copies := [], decoded := [], waiting := [] }
    wrc := { shockLow := s.wrc.shockLow }
    mot := {}
    hst := { s.hst with pcieUp := false }
    rng := {}
    ump := { partner := s.ump.partner }
    team := {} }
  let s := (s.setFlag F.MOT_CTL.RUN false).setFlag F.PACE_CTL.EN false
  (if s.flag F.WRC_CTL.INH_SW then s.inhibit F.WRC_STAT.INH_SWS else s).checkTriggers

/-- What a dropped exit loses (R442): all that R445 places in the image, and tile memory. -/
def State.imageLost (s : State) : State :=
  let qs := s.queues.map fun (e : Nat × Queue) => e.1
  let s := s.each ((List.range 512).filter fun q => qs.contains q || s.qEnabled q) fun s q => s.setFlag F.QUE_CFG.EN false q
  let s := (s.setFlag F.POOL_CTL.RUN false).raise F.PWR_STAT.QDR_DROPPED
  let s := { s with
    mem := []
    located := []
    tiles := []
    txr := []
    cores := []
    queues := []
    items := []
    bufs := []
    free := []
    hst := { s.hst with pairs := [], msix := [], streams := [], waiting := [], records := [], mounted := false, sealing := [],
                         group := {}, closed := [], index := [], quadNext := quadBase + 1 } }
  match s.calCopy with
  | some a => s.loadZones a
  | none => s

/-- The last steps of an exit to RUN (R441): ring ports with EN 1 train, adaptive channels start by R138, TEAM's slots reload from
the transactional image; PE_WAKE_N goes low where another source than PCIe woke the formatter (R386). -/
def State.dieResumes (s : State) : State :=
  let s := s.each s.chansOn State.startChan
  let s := s.each ((List.range 2).filter fun t => s.flag F.TEAM_SLOT.ACT t) fun s t =>
    (s.setFlag F.TEAM_SLOT.ACT false t).slotOn t
  let s := s.each ([Port.east, Port.west].filter fun p => s.flag (enField p)) fun s p =>
    (s.setFlag (enField p) false).portOn p
  let w := s.fld F.PWR_STAT.LAST_WAKE
  if w.testBit 4 || w.testBit 5 || w.testBit 6 then { s with pwr := { s.pwr with peWake := true } } else s

/-- The end of an exit: RUN, and a sleep request latched meanwhile is acted on (R450). -/
def State.running (s : State) : State := ((s.setFld F.PWR_STAT.STATE 0).setTrans .none).actOnLatched

/-- The exit from NAP (R441, R442), the saved registers having passed their CRC-32C: with the image where QDR was retained, the
image passes its checks, those of its handle among them (R265), and no tile of it is poisoned; dropped otherwise. -/
def State.napLeave (s : State) (imageOk : Bool) : State :=
  if s.pwr.qdrDropped then ((s.dieRestored false).imageLost.dieResumes).running
  else
    let good := (s.checkUse s.napHandle 0 napImageBytes 1 none).isNone
    let (s, _, m) := if good then s.bufRead s.napHandle 0 napImageBytes else (s, [], false)
    if good && imageOk && !m then (s.dieRestored true).dieResumes.running
    else ((s.dieRestored false).imageLost.raise F.PWR_STAT.IMG_LOST).dieResumes.running

/-- NAP_EXIT (R441, R442): `savedOk`, the saved registers pass their CRC-32C; `imageOk`, the image passes its checks. -/
def execNapExit (savedOk imageOk : Bool) (s : State) : Res :=
  let s := s.closeEntry
  if s.pwr.trans ≠ .exiting .nap then .next s
  else if !savedOk then .next (s.startNow 4)
  else
    let s := s.napLeave imageOk
    .next { s with pwr := { s.pwr with qdrDropped := false } }

/-! ## The serve pattern, decoded (R400, R448) -/

/-- The wake source of a ring lane. -/
def laneSource : Port → BitVec 10
  | .east => 0x004
  | .west => 0x008

/-- SERVE_RECEIVE (R400, R448): in DOZE, NAP and OFF a pattern for this ID or 0xFFFF wakes the formatter; one that does not match,
or is for 0xFFFF, goes on with a hop less. One whose CRC-8 fails is activity; so is any pattern in IDLE. -/
def execServeReceive (p : Port) (id : W16) (hops : Byte) (crc : Byte) (s : State) : Res :=
  let n := s.pstate
  if n = 0 then .next s
  else if n = 1 ∨ crc8 (serveBytes id.toNat hops.toNat) ≠ crc then .next (s.wakeBy (laneSource p))
  else
    let mine := id.toNat == s.devId
    let s := if (!mine || id == 0xFFFF) && hops != 0 then s.emit (.serve (Port.opp p) (serveCells id.toNat (hops.toNat - 1))) else s
    .next (if mine || id == 0xFFFF then s.wakeBy 0x010 else s)

/-! ## The AON clock (R17) -/

/-- AON_XTAL_CHANGEOVER (R17). -/
def execAonXtalChangeover (s : State) : Res := .next { s with pwr := { s.pwr with xtal := true } }

/-- AON_XTAL_LOST (R17): AON returns to the internal RC, and the umpire records the fault. -/
def execAonXtalLost (s : State) : Res :=
  .next (if s.pwr.xtal then { s with pwr := { s.pwr with xtal := false } }.report 0x0101 0 else s)

end Sys2Proof.Machine
end

