-- ==== Sys2Proof/Machine/Sampler.lean ====
section
/-!
DEFINITION. The duty-cycled sampler (R453 to R457) and the window on AON memory (R451).
-/
namespace Sys2Proof.Machine

/-! ## Values (R455) -/

/-- A 32-bit signed number of a list of bytes. -/
def int32At (l : List Byte) (off : Nat) : Int := (BitVec.ofNat 32 (natAt l off 4)).toInt

/-- Whether a descriptor compares a value: KIND 1 or 2. -/
def descUsed (d : List Byte) : Bool := natAt d 0 1 == 1 || natAt d 0 1 == 2

/-- Whether a descriptor's value is out of its window. -/
def descOut (d raw : List Byte) : Bool :=
  descUsed d && (decide (rawValue d raw < int32At d 4) || decide (int32At d 8 < rawValue d raw))

/-- The values of a raw record out of their windows, as a mask, and whether any of them wakes the formatter: a descriptor with WAKE
wakes it once, until a sample finds its value inside. -/
def State.compareValues (s : State) (raw : List Byte) : State × Nat × Bool :=
  (List.range 6).foldl (fun (a : State × Nat × Bool) k =>
    let (s, m, w) := a
    let d := s.valueDesc k
    let out := descOut d raw
    let armed := !s.pwr.disarmed.get (fun _ => false) k
    let wk := natAt d 1 1 / 128 == 1
    let s := if descUsed d then
        { s with pwr := { s.pwr with disarmed := s.pwr.disarmed.set (fun _ => false) k (out && wk) } }
      else s
    (s, if out then m + 2 ^ k else m, w || (out && wk && armed))) (s, 0, false)

/-! ## A sample (R453, R456, R457) -/

/-- Whether a wake would count: the formatter is not in RUN, or is on its way from it. -/
def State.asleep (s : State) : Bool :=
  s.pstate != 0 || (match s.pwr.trans with
    | .entering _ => true
    | _ => false)

/-- A sampler log entry written at HEAD (R456).
DEDUCED: log entry 65. -/
def State.sampleLog (s : State) (flags : Nat) (raw : List Byte) : State :=
  let h := s.fld F.SMP_STAT.HEAD
  let b := leBytes 4 (s.aonMs / 1000) ++ leBytes 2 s.pwr.sampleNo ++ leBytes 1 flags ++ leBytes 1 0 ++ bytesAt raw 0 16 ++ leBytes 4 0
  let s := s.aonStore (0x8000 + 32 * h) (b ++ leBytes 4 (crc32c b).toNat)
  let s := if s.pwr.smpFull then s.raise F.SMP_STAT.OVERWRITE else s
  let h := (h + 1) % 1024
  let s := s.setFld F.SMP_STAT.HEAD h
  if h = s.fld F.SMP_STAT.TAIL then { s with pwr := { s.pwr with smpFull := true } } else s

/-- What a sample has gathered: its raw record, and whether a bus failed; nothing but the temperature where AON_1V8 has switched
off. -/
def State.gather (s : State) (temp : Int) (replies : List SensorReply) : ListRun × List Byte :=
  let r : ListRun := if s.pwr.supplyTripped then { busErr := true } else runList s.sensorList false replies {}
  (r, bytesAt (leBytes 2 (BitVec.ofInt 16 temp).toNat ++ r.raw) 0 16)

/-- SAMPLE (R453 to R457): the temperature in 1/16 °C, the answers of the sensors to the command list, and how many samples came due
while it ran and were skipped.
DEDUCED: log entry 65. -/
def execSample (temp : Int) (replies : List SensorReply) (skipped : Nat) (s : State) : Res :=
  if s.fld F.SMP_PERIOD.PERIOD = 0 ∨ s.pstate = 4 then .next s
  else
    let (r, raw) := s.gather temp replies
    let tripped := s.pwr.supplyTripped
    let s := s.each r.sent fun s b => s.emit (.sensorBus b)
    let s := { s with pwr := { s.pwr with aon1v8 := s.flag F.MOT_CTL.RUN, supplyTripped := false } }
    let s := if r.busErr then s.raise F.SMP_STAT.BUS_ERR else s
    let (s, out, wk) := if tripped then (s, 0, false) else s.compareValues raw
    let wakes := wk && s.asleep
    let s := if s.flag F.SMP_CTL.LOG_ALL || out != 0 || tripped then
        s.sampleLog (out + (if r.busErr then 64 else 0) + (if wakes then 128 else 0)) raw
      else s
    let s := { s with pwr := { s.pwr with sampleNo := (s.pwr.sampleNo + 1 + skipped) % 65536 } }
    let s := if skipped = 0 then s else s.raise F.SMP_STAT.SKIPPED
    .next (if wakes then s.wakeBy 0x040 else s)

/-- AON1V8_OVERCURRENT (R457): AON_1V8 switches off, and the sample in progress ends. -/
def execAon1v8Overcurrent (s : State) : Res :=
  .next (({ s with pwr := { s.pwr with aon1v8 := false, supplyTripped := true } }).raise F.SMP_STAT.SUPPLY_ERR)

/-! ## The window (R451) -/

/-- A write through the AON window: the command list and value descriptors take it while the sampler is stopped. -/
def State.aonWindow (s : State) (off : Nat) (v : W32) : State :=
  if 0x1800 ≤ off ∧ off < 0x1960 ∧ s.fld F.SMP_PERIOD.PERIOD = 0 then s.aonStore off (leBytes 4 v.toNat)
  else s.raise F.PWR_STAT.STOPPED_ONLY

/-- A byte of the saved-register area (R444, R451): free, but for the CRC-32C in its last four.
DESIGN CHOICE: log entry 63. -/
def savedByte (draw k : Nat) : Byte :=
  let b (k : Nat) : Byte := Config.freeByte (2 ^ 40 * (draw + 1) + k)
  if k < 16380 then b k else (leBytes 4 (crc32c ((List.range 16380).map b)).toNat).getD (k - 16380) 0

/-- A byte of AON memory as its window shows it. -/
def State.aonByte (s : State) (a : Nat) : Byte :=
  match s.pwr.saved with
  | some d => if 0x2000 ≤ a ∧ a < 0x6000 then savedByte d (a - 0x2000) else s.aon.get (fun _ => 0) a
  | none => s.aon.get (fun _ => 0) a

end Sys2Proof.Machine
end

