-- ==== Sys2Proof/Machine/Flash.lean ====
section
/-!
DEFINITION. Commands of the BOOT registers: the boot flash through its 256-byte buffer (R468, R474), sticky alternates cleared
(R461), and the host watchdog's count (R474).
-/
namespace Sys2Proof.Machine

/-- What an unlisted byte of the flash buffer reads as. -/
def flBufDefault (_ : Nat) : Byte := 0

/-- Bytes that an operation left undetermined. -/
def State.freeBytes (s : State) (n : Nat) : State × List Byte :=
  (s.nextFree, (List.range n).map fun k => Config.freeByte (2 ^ 40 * (s.freeCtr + 1) + k))

/-- The flash address in `BOOT_FL_ADDR`. -/
def State.flashAddr (s : State) : Nat := s.fld F.BOOT_FL_ADDR.ADDR

/-- Whether an erase or program at the address is refused: in the journal mirror, or not a multiple of `n` (R468, R474). -/
def State.flashRefused (s : State) (n : Nat) : Bool := decide (s.flashAddr < 0x40000) || s.flashAddr % n != 0

/-- OP 1 (R474): erase a sector. One that fails sets FLASH_ERR and leaves its bytes undetermined.
DEDUCED: log entry 66. -/
def State.flashErase (s : State) (ok : Bool) : State :=
  if s.flashRefused 4096 then s.raise F.BOOT_STAT.FL_REFUSED
  else if ok then s.flashEraseSector s.flashAddr
  else
    let (s, b) := s.freeBytes 4096
    (s.flashStore s.flashAddr b).raise F.BOOT_STAT.FLASH_ERR

/-- The flash buffer. -/
def State.flashBuffer (s : State) : List Byte := s.boot.flBuf.slice flBufDefault 0 256

/-- OP 2: program 256 bytes from the buffer, which clears bits of the flash and sets none.
DEDUCED: log entry 66. -/
def State.flashProgram (s : State) (ok : Bool) : State :=
  if s.flashRefused 256 then s.raise F.BOOT_STAT.FL_REFUSED
  else if ok then
    s.flashStore s.flashAddr (List.zipWith (· &&& ·) (s.flashBytes s.flashAddr 256) s.flashBuffer)
  else
    let (s, b) := s.freeBytes 256
    (s.flashStore s.flashAddr b).raise F.BOOT_STAT.FLASH_ERR

/-- OP 3: read 256 bytes into the buffer. -/
def State.flashRead (s : State) : State :=
  if s.flashAddr % 256 ≠ 0 then s.raise F.BOOT_STAT.FL_REFUSED
  else { s with boot := { s.boot with flBuf := s.boot.flBuf.store flBufDefault 0 (s.flashBytes s.flashAddr 256) } }

/-- A write of CLR in `BOOT_ALT` (R461): the bits leave STICKY, in the journal header too. -/
def State.clearSticky (s : State) (bits : BitVec 9) : State :=
  s.putHeader (BitVec.ofNat 9 (s.fld F.BOOT_ALT.STICKY) &&& ~~~bits)

end Sys2Proof.Machine
end

