-- ==== Sys2Proof/Machine/Registers.lean ====
section
/-!
DEFINITION. Register accesses from the host (R2 to R6, R333, R334, R369 to R375, R467): a write by the access codes of its
fields, with what a write to a command field does, and a read with its clear-on-read fields. Configuration space is reached as
BAR 6.
-/
namespace Sys2Proof.Machine

/-! ## When a function is stopped (R333) -/

/-- Whether commands of an engine are queued or in progress. -/
def State.busy (s : State) (t : Nat) : Bool := !(s.cmds t).isEmpty

/-- Whether the function that the RWS fields at an offset of BAR0 belong to is stopped (R333 and each chapter's rule). The ring ports
are stopped while RUN is 0, as R404 has it for them, whatever commands are open.
DEDUCED: log entry 115. -/
def State.stoppedAt (s : State) (a : Nat) : Bool :=
  match a / 0x100000 with
  | 1 => s.fld F.SMP_PERIOD.PERIOD == 0
  | 2 => !s.flag F.UMP_CTL.RUN
  | 3 => if 0x302000 ≤ a then !s.flag F.HST_QCFG.EN ((a - 0x302000) / 0x20) else !s.flag F.HST_CTL.RUN && !s.busy 4
  | 4 => !s.flag F.RNG_CTL.RUN
  | 5 => s.cores.all fun e => e.2.run == .stopped
  | 6 => !s.qEnabled ((a - 0x610000) / 16)
  | 7 => !s.flag F.POOL_CTL.RUN
  | 8 => !s.flag F.POOL_CTL.RUN
  | 9 => !s.flag F.CMP_CTL.RUN && !s.busy 0
  | 10 => !s.flag F.CIP_CTL.RUN && !s.busy 1
  | 11 => s.chansOn.isEmpty && (s.cmds 2).all fun c => dCode c.desc != 4
  | 12 => !s.flag F.WRC_CTL.RUN && !s.flag F.WRC_STAT.WRITING
  | 13 => if a < 0xD40000 then !s.chanOn ((a - 0xD00000) / 4096) else s.chansOn.isEmpty
  | 14 => s.chansOn.isEmpty
  | 15 =>
    if 0xF00800 ≤ a ∧ a < 0xF01000 then !s.flag F.PACE_CTL.EN
    else if a = 0xF00014 ∨ a = 0xF00018 then !s.loopClosed 3 && !s.loopClosed 4
    else !s.flag F.MOT_CTL.RUN
  | 16 => s.teamStopped
  | _ => true

/-- STOPPED_ONLY of the function at an offset of BAR0. -/
def stoppedField (a : Nat) : Field × Nat :=
  match a / 0x100000 with
  | 1 => (F.PWR_STAT.STOPPED_ONLY, 0)
  | 2 => (F.UMP_STAT.STOPPED_ONLY, 0)
  | 3 => (F.HST_STAT.STOPPED_ONLY, 0)
  | 4 => (F.RNG_STAT.STOPPED_ONLY, 0)
  | 5 => (F.CORE_TXSTAT.STOPPED_ONLY, 0)
  | 6 => (F.QUE_FLOW.STOPPED_ONLY, 0)
  | 7 => (F.POOL_STAT.STOPPED_ONLY, 0)
  | 8 => (F.TIL_STAT.STOPPED_ONLY, 0)
  | 9 => (F.CMP_STAT.STOPPED_ONLY, 0)
  | 10 => (F.CIP_STAT.STOPPED_ONLY, 0)
  | 11 => (F.FMT_STAT.STOPPED_ONLY, 0)
  | 12 => (F.WRC_STAT.STOPPED_ONLY, 0)
  | 13 => (F.RDC_STAT.STOPPED_ONLY, 0)
  | 14 => (F.SRV_STAT.STOPPED_ONLY, 0)
  | 16 => (F.TEAM_STAT.STOPPED_ONLY, 0)
  | _ => (if 0xF00800 ≤ a ∧ a < 0xF01000 then F.PACE_STAT.STOPPED_ONLY else F.MOT_STAT.STOPPED_ONLY, 0)

/-- A refused write noted in its function's status (R4). -/
def State.stoppedOnly (s : State) (a : Nat) : State := s.raise (stoppedField a).1 (stoppedField a).2

/-! ## Fields (R3 to R5) -/

/-- A field of a register's word taken from another word. -/
def Field.from (f : Field) (w v : W32) : W32 := (w &&& ~~~f.mask) ||| (v &&& f.mask)

/-- What a write does to one field by its access code (R3); `hw` are the bits that a hardware event sets in the same cycle (R5). -/
def Field.written (f : Field) (stopped : Bool) (v hw : W32) (w : W32) : W32 :=
  match f.acc with
  | .rw => f.from w v
  | .rws => if stopped then f.from w v else w
  | .w1c => (w &&& ~~~(v &&& f.mask)) ||| (v &&& hw &&& f.mask)
  | .w1s => w ||| (v &&& f.mask)
  | _ => w

/-- Whether a write would change an RWS field (R4); `v` is what the register would take. -/
def Field.changes (f : Field) (w v : W32) : Bool := f.acc == .rws && (w &&& f.mask) != (v &&& f.mask)

/-- Bits of `TIL_REGIONn` that can be 1: regions from 1 to 64 × D − 1 (R248, R275).
DEDUCED: log entry 78. -/
def State.regionMask (s : State) (n : Nat) : W32 :=
  BitVec.ofNat 32 ((List.range 32).foldl (fun m k =>
    if 0 < 32 * n + k ∧ 32 * n + k < 64 * s.dies then m + 2 ^ k else m) 0)

/-- A field of a word held within bounds. -/
def Field.clamp (f : Field) (lo hi : Nat) (v : W32) : W32 := f.put v (max lo (min hi (f.get v)))

/-- What a register takes of a word written: fields beyond their range read back at its end, and bits that ignore writes are 0
(R110, R120, R275). -/
def State.taken (s : State) (a : Nat) (v : W32) : W32 :=
  if 0x800010 ≤ a ∧ a < 0x800030 then v &&& s.regionMask ((a - 0x800010) / 4)
  else if a = 0xB00100 then F.FMT_CODE_CTL.C1_SCALE.clamp 1 15 (F.FMT_CODE_CTL.C1_MAX_IT.clamp 1 24 v)
  else if 0xD00000 ≤ a ∧ a < 0xD40000 ∧ a % 4096 = 4 then F.RDC_GAIN_CTL.GAIN.clamp 0 144 v
  else if 0xD00000 ≤ a ∧ a < 0xD40000 ∧ a % 4096 = 8 then F.RDC_CTF_CTL.BOOST.clamp 0 24 v
  else v

/-- Bits of a register whose writes are commands, not stores; DBG_EN while SECURE ignores writes (R372). -/
def State.commandBits (s : State) (a : Nat) : W32 :=
  if a = 0x300000 then (if s.flag F.KEY_CTL.SECURE then 2 else 0)
  else if 0x302000 ≤ a ∧ a < 0x304000 then (if a % 32 = 16 then 0x80000000 else 0)
  else if a = 0x400000 then 6
  else if 0x500100 ≤ a ∧ a < 0x500200 then 1
  else if 0x610000 ≤ a ∧ a < 0x612000 then (if a % 16 = 0 then 0x80000000 else 0)
  else if a = 0x700000 ∨ a = 0x900000 ∨ a = 0xA00000 ∨ a = 0x1000000 ∨ a = 0xF00000 then 1
  else if a = 0xC00000 then 3
  else if 0xD00000 ≤ a ∧ a < 0xD40000 then (if a % 4096 = 0 then 1 else 0)
  else if a = 0xF00004 then 0x1F
  else if a = 0xF0000C then 0x1FF
  else if a = 0x1000100 ∨ a = 0x1000110 then 0x80000000
  else 0

/-! ## What a write to a command field does -/

/-- Commands of BOOT and PWR. -/
def State.hookAon (s : State) (a : Nat) (old v : W32) : State :=
  if a = 0x10 then s.clearSticky (BitVec.ofNat 9 (F.BOOT_ALT.CLR.get v))
  else if a = 0x28 then
    match F.BOOT_FL_CMD.OP.get v with
    | 1 => s.flashErase true
    | 2 => s.flashProgram true
    | 3 => s.flashRead
    | _ => s
  else if a = 0x100014 then (if v.getLsbD 31 then s.sleepGo (F.PWR_CMD.TARGET.get v) else s)
  else if a = 0x100108 then
    (if F.SMP_STAT.TAIL.get old = F.SMP_STAT.TAIL.get v then s else { s with pwr := { s.pwr with smpFull := false } })
  else s

/-- Commands of HST, RNG and CORE.
DEDUCED: log entry 69. -/
def State.hookHost (s : State) (a : Nat) (v : W32) : State :=
  if 0x302000 ≤ a ∧ a < 0x304000 ∧ a % 32 = 16 then
    let k := (a - 0x302000) / 32
    if v.getLsbD 31 then s.pairOn (k / 16) (k % 16) else s.pairOff (k / 16) (k % 16)
  else if a = 0x400000 then
    let s := if v.getLsbD 1 then s.portOn .east else s.portOff .east
    let s := if v.getLsbD 2 then s.portOn .west else s.portOff .west
    if v.getLsbD 0 then s.ringGo else s
  else if a = 0x40000C then (if v.getLsbD 0 then s.serveGo else s)
  else if a = 0x500008 then (if v.getLsbD 31 then s.loadGo else s)
  else if 0x500100 ≤ a ∧ a < 0x500200 ∧ a % 16 = 0 then
    let n := (a - 0x500100) / 16
    let s := if v.getLsbD 0 then s.coreRunOn n else s.coreRunOff n
    let s := if v.getLsbD 1 then s.coreToStopped n else s
    if v.getLsbD 2 then s.signal n else s
  else s

/-- Commands of QUE, POOL, TIL, CMP, CIP and FMT. -/
def State.hookStore (s : State) (a : Nat) (v : W32) : State :=
  if 0x610000 ≤ a ∧ a < 0x612000 ∧ a % 16 = 0 then
    let q := (a - 0x610000) / 16
    if v.getLsbD 31 then s.queueOn q else if s.qEnabled q then s.queueOff q else s
  else if a = 0x700000 then (if v.getLsbD 0 then s.poolOn else if s.flag F.POOL_CTL.RUN then s.poolOff else s)
  else if a = 0x900000 then (if v.getLsbD 0 then s.cmpOn else if s.flag F.CMP_CTL.RUN then s.cmpOff else s)
  else if a = 0xA00000 then (if v.getLsbD 0 then s.setFlag F.CIP_CTL.RUN true else if s.flag F.CIP_CTL.RUN then s.cipOff else s)
  else if a = 0xA00004 then (if F.CIP_LOCK.FREE.get v = 1 then s.lockFree else s)
  else s

/-- A changed dark group (R58, R176): the ridge in progress is closed early first, under the group that it was written with. -/
def State.darkChanged (s : State) (a : Nat) (old : W32) : State :=
  let before := s.setReg a old
  if before.darkGroup = s.darkGroup then s else before.closeForDark.setReg a (s.reg a)

/-- Commands of WRC and RDC: a trigger that holds when it is enabled enters write inhibit (R170). HANDOFF_DONE falls when MODE is
written table.
DESIGN CHOICE: log entry 99. -/
def State.hookTape (s : State) (a : Nat) (old v : W32) : State :=
  if a = 0xC00000 then
    let s := if v.getLsbD 1 == old.getLsbD 1 then s else s.setInhSw (v.getLsbD 1)
    let s := if v.getLsbD 0 then s.setFlag F.WRC_CTL.RUN true else if old.getLsbD 0 then s.wrcOff else s
    if v.getLsbD 3 then s.tryClear else s
  else if a = 0xC00010 then s.checkTriggers
  else if a = 0xC00030 then (if v.getLsbD 0 then s.sbStart else s)
  else if 0xD00000 ≤ a ∧ a < 0xD40000 then
    let c := (a - 0xD00000) / 4096
    if a % 4096 ≠ 0 then s else if v.getLsbD 0 then s.chanEnable c else if s.chanOn c then s.chanDisable c else s
  else if a = 0xD40000 then
    let s := s.darkChanged a old
    if s.adaptive then s else s.setFlag F.RDC_STAT.HANDOFF_DONE false
  else if a = 0xD40004 then
    let s := if v.getLsbD 1 then s.handoff else s
    if v.getLsbD 2 then s.calGo (F.RDC_CMD.CAL_GRP.get v) else s
  else s

/-- Commands of MOT and TEAM. -/
def State.hookMotion (s : State) (a : Nat) (old v : W32) : State :=
  if a = 0xF00000 then
    let s := if old.getLsbD 2 && !v.getLsbD 2 then s.emit .motionReleased else s
    if v.getLsbD 0 then s.motOn else if old.getLsbD 0 then s.motOff else s
  else if a = 0xF00004 then s.setClose (F.MOT_LOOP.CLOSE.get v)
  else if a = 0xF0000C then s.setWrap (F.MOT_WRAP.W.get v)
  else if a = 0x1000000 then
    (if v.getLsbD 0 then (if old.getLsbD 0 then s else s.teamRunOn) else if old.getLsbD 0 then s.teamRunOff else s)
  else if a = 0x1000100 ∨ a = 0x1000110 then
    let t := (a - 0x1000100) / 16
    if v.getLsbD 31 == old.getLsbD 31 then s
    else if !s.teamStopped then s
    else if v.getLsbD 31 then s.slotOn t else s.slotOff t
  else s

/-- The commands of a register's write, once its other fields have their new values (R334). -/
def State.regHook (s : State) (a : Nat) (old v : W32) : State :=
  match a / 0x100000 with
  | 0 => s.hookAon a old v
  | 1 => s.hookAon a old v
  | 2 => if a = 0x200008 then { s with ump := { s.ump with full := false } } else s
  | 3 => s.hookHost a v
  | 4 => s.hookHost a v
  | 5 => s.hookHost a v
  | 12 => s.hookTape a old v
  | 13 => s.hookTape a old v
  | 15 => s.hookMotion a old v
  | 16 => s.hookMotion a old v
  | _ => s.hookStore a v

/-- A write to a register that the tables list. -/
def State.tableWrite (s : State) (r : RegDesc) (a : Nat) (v hw : W32) : State :=
  let old := s.taken a (s.reg a)
  let v := s.taken a v
  let stopped := s.stoppedAt a
  let w := r.fields.foldl (fun w f => f.written stopped v hw w) old
  let c := s.commandBits a
  let refused := !stopped && r.fields.any fun f => f.changes old v
  let s := s.setReg a ((w &&& ~~~c) ||| (old &&& c))
  (if refused then s.stoppedOnly a else s).regHook a old v

/-! ## Arrays and windows that no register table lists -/

/-- A write to the memories inside the block windows: RDC zone memory while its channel is stopped (R132, R136), MOT stage elements and
program (R201, R202, R215), the core debug window (R315), the AON window (R451), the flash buffer (R474). Other offsets take
none (R371). A refused write that would change the word sets STOPPED_ONLY.
DESIGN CHOICE: log entry 99. -/
def State.windowStore (s : State) (a : Nat) (v : W32) : State :=
  if 0x1000 ≤ a ∧ a < 0x1100 then
    { s with boot := { s.boot with flBuf := s.boot.flBuf.store flBufDefault (a - 0x1000) (leBytes 4 v.toNat) } }
  else if 0x110000 ≤ a ∧ a < 0x120000 then s.aonWindow (a - 0x110000) v
  else if 0x580000 ≤ a ∧ a < 0x590000 then s.windowWrite (a - 0x580000) v
  else if 0xD00000 ≤ a ∧ a < 0xD40000 ∧ 2048 ≤ a % 4096 then
    (if !s.chanOn ((a - 0xD00000) / 4096) then s.setReg a v else if s.reg a = v then s else s.stoppedOnly a)
  else if 0xF01000 ≤ a ∧ a < 0xF01800 then
    let free := match s.stageOwner ((a - 0xF01000) / 64) with
      | some l => !s.loopClosed l
      | none => !s.flag F.MOT_CTL.RUN
    let v := v &&& 0xFFFF
    if free then s.setReg a v else if s.reg a = v then s else s.stoppedOnly a
  else if 0xF02000 ≤ a ∧ a < 0xF02800 then
    (if !s.flag F.MOT_CTL.RUN then s.setReg a v else if s.reg a = v then s else s.stoppedOnly a)
  else s

/-! ## Addresses (R369 to R371, R374, R375) -/

/-- The offset in the register file of an offset in BAR0 of the physical function: the pairs of function 0 stand at a second
place too (R374). -/
def pfOffset (a : Nat) : Nat := if 0x301000 ≤ a ∧ a < 0x301200 then a + 0x1000 else a

/-- Whether R467 holds a write back: it is to RDC, SRV, MOT or WRC, and S6 or S7 runs.
DEDUCED: log entry 68. -/
def State.writeHeld (s : State) (a : Nat) : Bool := decide (0xC00000 ≤ a) && decide (a < 0x1000000) && s.afeHeld

/-- A 4-byte write to an offset of the register file. -/
def State.regWrite (s : State) (a : Nat) (v hw : W32) : State :=
  match regAt a with
  | some r => if s.writeHeld a then s.stoppedOnly a else s.tableWrite r a v hw
  | none => if s.writeHeld a then s.stoppedOnly a else s.windowStore a v

/-- A write to a doorbell of a function (R375): the pair's SQ tail, or its CQ head. -/
def State.bellWrite (s : State) (f off : Nat) (v : W32) : State :=
  if 128 ≤ off then s
  else if off % 8 = 0 then s.sqBell f (off / 8) (v.toNat % 65536)
  else (s.cqBell f (off / 8) (v.toNat % 65536)).postAll

/-- A write to a function's MSI-X table: 8 vectors of 16 bytes. -/
def State.msixWrite (s : State) (f off : Nat) (v : W32) : State :=
  if 128 ≤ off then s
  else { s with hst := { s.hst with msix := s.hst.msix.set msixDefault (4096 * f + off) v } }.msixFlush f

/-- A write to configuration space, with the bits of the bytes it has: writable bits, those that a 1 clears, and a function-level reset
where Device Control asks for one. -/
def State.cfgWrite (s : State) (f off : Nat) (v bits : W32) : State :=
  let m := cfgMask f off &&& bits &&& ~~~cfgKept off v
  let w := ((s.cfg f off &&& ~~~m) ||| (v &&& m)) &&& ~~~(v &&& bits &&& cfgW1c off)
  let s := (s.setCfg f off w).msixFlush f
  if off = 0x48 ∧ (v &&& bits).getLsbD 15 ∧ s.fnActive f then s.flr f else s

/-- A dword with some of its bytes written: `len` bytes from byte `k`. -/
def mergeBytes (old v : W32) (k len : Nat) : W32 :=
  let m := BitVec.ofNat 32 ((2 ^ (8 * len) - 1) <<< (8 * k))
  (old &&& ~~~m) ||| ((v <<< (8 * k)) &&& m)

/-- A 4-byte aligned write to a BAR of a function. -/
def State.barWrite (s : State) (f bar off : Nat) (v hw : W32) : State :=
  if f = 0 then
    match bar with
    | 0 => s.regWrite (pfOffset off) v hw
    | 4 => if off < 0x8000 then s.bellWrite 0 off v else if off < 0xC000 then s.msixWrite 0 (off - 0x8000) v else s
    | _ => s
  else if bar = 0 then
    if off < 0x200 then s.regWrite (0x302000 + 0x200 * f + off) v hw
    else if 0x1000 ≤ off ∧ off < 0x2000 then s.bellWrite f (off - 0x1000) v
    else if 0x2000 ≤ off ∧ off < 0x3000 then s.msixWrite f (off - 0x2000) v
    else s
  else s

/-- A host write (R3, R371): from the end of S4 (R368) HST takes `len` bytes at an offset of a BAR of an active function. -/
def State.writeAccess (s : State) (fn : FnId) (bar off len : Nat) (val hwSet : W32) : State :=
  if !s.stepDone 4 || !s.fnActive fn then s
  else if bar = 6 then
    (if off < 4096 ∧ off % 4 + len ≤ 4 then
      let a := off / 4 * 4
      s.cfgWrite fn a (mergeBytes (s.cfg fn a) val (off % 4) len) (mergeBytes 0 0xFFFFFFFF (off % 4) len)
    else s)
  else if len ≠ 4 ∨ off % 4 ≠ 0 then s.raise F.HST_STAT.ACC_ERR
  else s.barWrite fn bar off val hwSet

/-! ## Reads -/

/-- A word with a field's value in it. -/
def Field.word (f : Field) (x : Nat) : W32 := f.put 0 x

/-- The fields of core registers that follow a core's state (R277, R307, R315). -/
def State.coreView (s : State) (a : Nat) : W32 :=
  let n := (a - 0x500100) / 16
  let c := s.core n
  let run := match c.run with
    | .stopped => 0
    | .running => 1
    | .halted => 2
    | .faulted => 3
  match a % 16 with
  | 4 => s.reg a ||| F.CORE_STAT.STATE.word run ||| F.CORE_STAT.IMG_OK.word c.imgOk.toNat ||| F.CORE_STAT.LEVEL.word c.level |||
      F.CORE_STAT.FCODE.word c.fcode
  | 8 => F.CORE_FAULT.FPC.word c.fpc ||| F.CORE_FAULT.FSTAT.word c.fstat.toNat
  | 12 => if c.imgOk then c.imageVer else 0
  | _ => s.reg a

/-- The fields of a key slot's registers (R358). -/
def State.keyView (s : State) (a : Nat) : W32 :=
  let n := (a - 0xA01100) / 16
  let k := s.key n
  match a % 16 with
  | 0 => F.KEY_SLOT.ENC.word k.enc.toNat ||| F.KEY_SLOT.DEC.word k.dec.toNat ||| F.KEY_SLOT.KSIZE.word k.ksize |||
      F.KEY_SLOT.HELD.word (s.slotHeld n).toNat ||| F.KEY_SLOT.VALID.word k.valid.toNat
  | 4 => if n < 64 then BitVec.ofNat 32 k.tkid.toNat else 0
  | 8 => if n < 64 then BitVec.ofNat 32 (k.tkid.toNat / 2 ^ 32) else 0
  | _ => 0

/-- A compression lane's register (R245). A command in progress ends within its own step, so ACTIVE reads 0.
DESIGN CHOICE: log entry 70. -/
def State.laneView (s : State) (l : Nat) : W32 :=
  F.CMP_LANE.QUEUED.word (laneLen (s.cmds 0) l) ||| F.CMP_LANE.SLOT.word ((s.lane l).loaded.getD 0) |||
    F.CMP_LANE.BOUND.word (s.slotLane.any fun e => e.2 == some l).toNat

/-- A read channel's register: DARK follows whether its group is dark (R145); all others are as stored. -/
def State.chanView (s : State) (a : Nat) : W32 :=
  if a % 4096 = 0 then F.RDC_CH_CTL.DARK.put (s.reg a) (s.darkGroup == some ((a - 0xD00000) / 4096 / 4)).toNat
  else s.reg a

/-- What a register reads as: its stored word, with the fields that follow other state.
DESIGN CHOICE: log entry 70. -/
def State.regView (s : State) (a : Nat) : W32 :=
  if a = 0 then BitVec.ofNat 32 bootPart
  else if a = 4 then BitVec.ofNat 32 Config.serial.toNat
  else if a = 8 then BitVec.ofNat 32 (Config.serial.toNat / 2 ^ 32)
  else if a = 0x0C then (if s.boot.napped then s.reg a &&& 0x06000000 else s.reg a)
  else if a = 0x18 then BitVec.ofNat 32 s.bootFloor
  else if 0x1000 ≤ a ∧ a < 0x1100 then BitVec.ofNat 32 (leNat (s.boot.flBuf.slice flBufDefault (a - 0x1000) 4))
  else if 0x110000 ≤ a ∧ a < 0x120000 then
    BitVec.ofNat 32 (leNat ((List.range 4).map fun k => s.aonByte (a - 0x110000 + k)))
  else if a = 0x100040 then
    let oe := s.fld F.PWR_GPIO.OE
    let inp := (Config.freeW64 s.freeCtr).toNat % 256
    F.PWR_GPIO.IN.put (s.reg a) (((s.fld F.PWR_GPIO.OUT).land oe).lor (inp.land (255 - oe)))
  else if a = 0x300000 then
    (if s.flag F.KEY_CTL.SECURE then F.HST_CTL.DBG_EN.put (s.reg a) 0 else s.reg a)
  else if 0x300100 ≤ a ∧ a < 0x300140 then F.HST_FN.ACTIVE.put (s.reg a) (s.fnActive ((a - 0x300100) / 4)).toNat
  else if 0x302000 ≤ a ∧ a < 0x304000 ∧ a % 32 = 20 then
    let k := (a - 0x302000) / 32
    F.HST_QSTAT.SQ_HEAD.word (s.pair (k / 16) (k % 16)).sqHead ||| F.HST_QSTAT.CQ_TAIL.word (s.pair (k / 16) (k % 16)).cqTail
  else if 0x500100 ≤ a ∧ a < 0x500200 then s.coreView a
  else if 0x580000 ≤ a ∧ a < 0x590000 then s.windowRead (a - 0x580000)
  else if a = 0x600004 then
    F.QUE_FLOW.PIN.put (s.reg a) ((List.range 4).foldl (fun m k => if s.flowLow k then m + 2 ^ k else m) 0)
  else if 0x610000 ≤ a ∧ a < 0x612000 ∧ a % 16 = 8 then
    let q := (a - 0x610000) / 16
    F.QUE_STAT.ITEMS.word (s.qCount q) ||| F.QUE_STAT.ABOVE.word (s.queue q).above.toNat
  else if 0x800010 ≤ a ∧ a < 0x800030 then s.reg a &&& s.regionMask ((a - 0x800010) / 4)
  else if 0x700200 ≤ a ∧ a < 0x700220 then F.POOL_FREE.FREE.word (s.freeList ((a - 0x700200) / 4)).length
  else if a = 0x900008 then F.CMP_STAT.BUSY.put (s.reg a) (s.busy 0).toNat
  else if 0x900010 ≤ a ∧ a < 0x900030 then s.laneView ((a - 0x900010) / 4)
  else if a = 0xA00008 then F.CIP_STAT.BUSY.put (s.reg a) (s.busy 1).toNat
  else if a = 0xA01000 then (if s.flag F.KEY_CTL.SECURE then s.reg a ||| 0xF else s.reg a)
  else if 0xA01100 ≤ a ∧ a < 0xA01580 then s.keyView a
  else if 0xD00000 ≤ a ∧ a < 0xD40000 then s.chanView a
  else if a = 0x1000004 then
    F.TEAM_STAT.BUSY.put (s.reg a) (s.busy 3 || !s.team.chains.isEmpty || !s.team.leaks.isEmpty).toNat
  else s.reg a

/-- What a read of an offset of the register file returns: zero where nothing is assigned (R371), fields that are written only
zero (R3). -/
def State.regRead (s : State) (a : Nat) : W32 :=
  match regAt a with
  | some r => s.regView a &&& ~~~((r.fields.filter fun f => f.acc == .wo).foldl (fun m f => m ||| f.mask) 0)
  | none => s.regView a

/-- The clear-on-read fields of a register cleared; one whose event falls in the same cycle is left at 1 (R3, R5, R112). -/
def State.readClear (s : State) (a : Nat) (ev : W32) : State :=
  match regAt a with
  | some r =>
    let rc := r.fields.filter fun f => f.acc == .rc
    if rc.isEmpty then s
    else s.setReg a (rc.foldl (fun w f => f.put w (if f.get ev = 0 then 0 else 1)) (s.reg a))
  | none => s

/-- What a read of a BAR of a function returns. -/
def State.barRead (s : State) (f bar off : Nat) : W32 :=
  if f = 0 then
    match bar with
    | 0 => s.regRead (pfOffset off)
    | 4 =>
      if 0x8000 ≤ off ∧ off < 0x8080 then s.hst.msix.get msixDefault (off - 0x8000)
      else if 0xC000 ≤ off ∧ off < 0xC008 then s.pbaWord 0 (off - 0xC000) else 0
    | _ => 0
  else if bar = 0 then
    if off < 0x200 then s.regRead (0x302000 + 0x200 * f + off)
    else if 0x2000 ≤ off ∧ off < 0x2080 then s.hst.msix.get msixDefault (4096 * f + off - 0x2000)
    else if 0x3000 ≤ off ∧ off < 0x3008 then s.pbaWord f (off - 0x3000)
    else 0
  else 0

/-- The register that a read of a BAR of a function reaches. -/
def barReg (f bar off : Nat) : Option Nat :=
  if bar ≠ 0 then none
  else if f = 0 then some (pfOffset off)
  else if off < 0x200 then some (0x302000 + 0x200 * f + off)
  else none

/-- The word at an offset of a BAR of a function, or of configuration space, as a read finds it. -/
def State.wordAt (s : State) (fn bar a : Nat) : W32 := if bar = 6 then s.cfgRead fn a else s.barRead fn bar a

/-- The words that a read of `len` bytes at an offset touches. -/
def wordsOf (off len : Nat) : List Nat := (List.range ((off + len + 3) / 4 - off / 4)).map fun k => 4 * (off / 4 + k)

/-- The bytes that a read of `len` bytes at an offset returns (R371). -/
def State.readBytes (s : State) (fn bar off len : Nat) : List Byte :=
  bytesAt ((wordsOf off len).flatMap fun a => leBytes 4 (s.wordAt fn bar a).toNat) (off % 4) len

/-- The clear-on-read fields of the register that a word of a BAR shows, cleared. -/
def State.clearAt (s : State) (fn bar a : Nat) (ev : W32) : State :=
  match barReg fn bar a with
  | some r => s.readClear r ev
  | none => s

/-- A host read (R3, R5, R112, R371): the bytes addressed are returned, and the registers they lie in have their clear-on-read fields
cleared, whichever of their bytes were read. `hwEvent` has a bit of each such field of the first whose event falls in the same cycle.
DEDUCED: log entry 76. -/
def State.readAccess (s : State) (fn : FnId) (bar off len : Nat) (hwEvent : W32) : State :=
  if !s.stepDone 4 || !s.fnActive fn then s
  else
    let t := (s.emit (.readData fn bar off (s.readBytes fn bar off len))).nextFree
    t.each (wordsOf off len) fun t a => t.clearAt fn bar a (if a = off / 4 * 4 then hwEvent else 0)

end Sys2Proof.Machine
end

