-- ==== Sys2Proof/Machine/Boot.lean ====
section
/-!
DEFINITION. The boot sequence (R459 to R469): the boot image and its checks, what each step leaves when it is done, and the
events that cause a start or hold one: RESET_N, the watchdog, VIN, VIO and PERST_N (R471, R473, R481 to R483). Then what a
millisecond does with no command waiting.
-/
namespace Sys2Proof.Machine

/-! ## The boot image (R463 to R466) -/

/-- Bytes of a boot image slot: 0 the primary, 1 the alternate (R462). -/
def State.imageSlot (s : State) (k : Nat) : List Byte := s.flashBytes (0x100000 + 0x100000 * k) 0x100000

/-- Body length B of a boot image. -/
def bootB (b : List Byte) : Nat := natAt b 16 4

/-- Whether the header fields of a boot image, and the two about its signature, are valid (R464). -/
def bootHeaderOk (b : List Byte) : Bool :=
  let n := bootB b
  natAt b 0 4 == 0x544F4F42 && natAt b 4 2 == 1 && decide (natAt b 6 2 < 2) && n % 8 == 0 && decide (8 ≤ n) &&
    decide (n ≤ 1040000) && decide (natAt b 22 2 ≤ 2) && natAt b 24 40 == 0 && natAt b (128 + n) 2 == 1280 &&
    natAt b (130 + n) 2 == 0

/-- Whether the digest at offset 64 is that of bytes 0 to 63 and the body. -/
def bootDigestOk (b : List Byte) : Bool :=
  bytesAt b 64 64 == shake256 (bytesAt b 0 64 ++ bytesAt b 128 (bootB b)) 64

/-- The first `n` sections of a body: type and data (R465). -/
def sectionsOf : Nat → List Byte → Option (List (Nat × List Byte))
  | 0, _ => some []
  | n + 1, b =>
    let len := natAt b 4 4
    let size := 8 + (len + 7) / 8 * 8
    if b.length < size ∨ natAt b 2 2 ≠ 0 then none
    else (sectionsOf n (b.drop size)).map fun l => (natAt b 0 2, bytesAt b 8 len) :: l

/-- The sections of a boot image, none where they do not fit its body. -/
def bootSections (b : List Byte) : Option (List (Nat × List Byte)) := sectionsOf (natAt b 20 2) (bytesAt b 128 (bootB b))

/-- Whether a section has a known type and that type's length (R465). -/
def sectionOk (t : Nat) (d : List Byte) : Bool :=
  match t with
  | 1 => d.length == 1793
  | 2 => d.length % 1793 == 0 && decide (d.length ≤ 4 * 1793)
  | 3 => d.length == 4
  | 4 => d.length == 4224
  | 5 => d.length % 8 == 0
  | _ => false

/-- Data of the last section of a type; no bytes without one. -/
def sectionData (l : List (Nat × List Byte)) (t : Nat) : List Byte :=
  ((l.reverse.find? fun (e : Nat × List Byte) => e.1 == t).map fun (e : Nat × List Byte) => e.2).getD []

/-- Whether the sections are ones the ROM takes: known, and an owner-signed image has its key first (R465). -/
def sectionsOk (signer : Nat) (l : List (Nat × List Byte)) : Bool :=
  l.all (fun (e : Nat × List Byte) => sectionOk e.1 e.2) &&
    (signer == 0 || (l.head?.map fun (e : Nat × List Byte) => e.1) == some 1)

/-- The signer key of an image. -/
def signerKey (b : List Byte) (l : List (Nat × List Byte)) : List Byte :=
  if natAt b 22 2 = 0 then Config.romKey
  else (l.head?.map fun (e : Nat × List Byte) => e.2).getD []

/-- The reason for which a slot is refused, as the detail of S3 gives it (R460); none for an image that passes (R463, R465). -/
def State.bootRefusal (s : State) (b : List Byte) : Option Nat :=
  if !bootHeaderOk b then some 1
  else if !bootDigestOk b then some 2
  else match bootSections b with
    | none => some 1
    | some l =>
      let n := bootB b
      if !sectionsOk (natAt b 22 2) l then some 1
      else if natAt b 22 2 ≠ 0 ∧ shake256 (signerKey b l) 32 ≠ Config.ownerHash (natAt b 22 2) then some 5
      else if !Config.falconVerify (signerKey b l) (bytesAt b 0 (128 + n)) (bytesAt b (132 + n) 1280) then some 3
      else if natAt b 12 4 < s.bootFloor then some 4
      else none

/-- A list cut in pieces of `n`, at most `fuel` of them. -/
def keyPieces (n : Nat) : Nat → List Byte → List (List Byte)
  | 0, _ => []
  | k + 1, l => if l.isEmpty then [] else l.take n :: keyPieces n k (l.drop n)

/-- A boot image taken into use. -/
def State.takeImage (s : State) (b : List Byte) : State :=
  let l := (bootSections b).getD []
  let s := s.setFld F.BOOT_PFLOOR.PFLOOR (natAt (sectionData l 3) 0 4)
  { s with
    boot :=
      { s.boot with
        imageVer := BitVec.ofNat 32 (natAt b 8 4)
        imageSec := BitVec.ofNat 32 (natAt b 12 4)
        imageDigest := bytesAt b 64 64
        imageFlags := BitVec.ofNat 16 (natAt b 6 2)
        ownerSigned := natAt b 22 2 != 0
        signerKeys := keyPieces 1793 4 (sectionData l 2)
        law := sectionData l 4
        settings := sectionData l 5 } }

/-! ## S3 -/

/-- The slots in the order S3 tries them. -/
def State.slotOrder (s : State) : List Nat := if s.sticky 3 then [1, 0] else [0, 1]

/-- What S3 finds: the slot it uses, none where neither passes, and the reason for the last slot refused, 0 for none. -/
def State.findImage (s : State) : Option Nat × Nat :=
  s.slotOrder.foldl (fun (acc : Option Nat × Nat) k =>
    match acc.1, s.bootRefusal (s.imageSlot k) with
    | some _, _ => acc
    | none, none => (some k, acc.2)
    | none, some r => (none, r)) (none, 0)

/-- Key slots 64 and 66 to 71 as a start loads them (R358, R472). -/
def State.loadKeys (s : State) : State :=
  let s := s.setKey 64 { valid := true, key := Config.duk, ksize := 2 }
  s.each (List.range 6) fun s k => s.setKey (66 + k) { valid := true, key := Config.bootKey (66 + k), ksize := 2 }

/-- S3's work (R463, R469): the image or ROM-only service, and the identity key. -/
def State.endS3 (s : State) : State :=
  let (slot, reason) := s.findImage
  let s := match slot with
    | some k => s.takeImage (s.imageSlot k)
    | none => s
  let s := s.loadKeys.setFld F.BOOT_IDKH.IDKH (natAt (shake256 Config.identityKey 32) 0 4)
  let bits := match slot with
    | some 0 => 0
    | some _ => 4
    | none => 2
  (s.setRecord 5 1 ((natAt s.startRecord 5 1).lor bits)).setDetail 3 (slot.getD 2 + 256 * reason)

/-! ## The other steps -/

/-- S2's work: tile memory zeroed. -/
def State.endS2 (s : State) : State := { s with mem := [], located := [], tiles := [] }

/-- The register settings of the boot image, in order (R465). -/
def State.applySettings (s : State) : State :=
  s.each (List.range (s.boot.settings.length / 8)) fun s k =>
    let a := natAt s.boot.settings (8 * k) 4
    if a % 4 = 0 then s.regWrite (pfOffset a) (BitVec.ofNat 32 (natAt s.boot.settings (8 * k + 4) 4)) 0
    else s.raise F.HST_STAT.ACC_ERR

/-- S4's work: the link where it trains, its detail, and the register settings at the end. -/
def State.endS4 (s : State) (r : StepResult) : State :=
  let s := s.linkUp r.speed r.width
  let s := s.setDetail 4 (s.fld F.HST_STAT.SPEED + 16 * s.fld F.HST_STAT.WIDTH)
  if s.flag F.BOOT_STAT.ROM_ONLY then s else s.applySettings

/-- S8's work with a cartridge loaded (R459): it is mounted, and every channel outside the dark group runs in adaptive mode.
DEDUCED: log entry 72. -/
def State.endS8 (s : State) (r : StepResult) : State :=
  if !r.cartridge then s
  else
    let s := s.mountTape r.mount
    let s := (s.setFld F.RDC_CFG.MODE 1).raise F.RDC_STAT.HANDOFF_DONE
    s.each ((List.range 64).filter fun c => s.darkGroup != some (c / 4)) fun s c =>
      if s.chanOn c then ((s.setRchan c { s.rchan c with handoffPending := false }).useZone c).setFlag F.RDC_CH_STAT.ADAPTIVE true c
      else (s.setFlag F.RDC_CH_CTL.EN true c).startChan c

/-- The start is complete (R460, R466): the record says so, and when, and a flagged image raises the boot floor. -/
def State.startComplete (s : State) : State :=
  let s := s.setRecord 5 1 ((natAt s.startRecord 5 1).lor 1)
  let s := s.setRecord 52 4 s.aonMs
  if s.boot.imageFlags.getLsbD 0 && decide (s.bootFloor < s.boot.imageSec.toNat) then
    { s with boot := { s.boot with floorRaised := s.boot.imageSec } }
  else s

/-- Whether a step in progress can end: S4 with PERST_N high (R473), S6 with no group left to calibrate. -/
def State.mayEnd (s : State) (n : Nat) : Bool :=
  s.inStep n && (n != 4 || s.hst.perstHigh) && (n != 6 || (s.calib.isEmpty && s.boot.calLeft.isEmpty))

/-- What a step's work leaves when it is done. -/
def State.endStep (s : State) (n : Nat) (r : StepResult) : State :=
  match n with
  | 2 => s.endS2
  | 3 => s.endS3
  | 4 => s.endS4 r
  | 8 => s.endS8 r
  | _ => s

/-- The journal write of a step's end fails (R460): FLASH_ERR, and the mirror's newest record is left undetermined. -/
def State.mirrorFails (s : State) : State :=
  let a := 64 * ((s.boot.mirrorNext + 4095) % 4096)
  let (s, b) := s.freeBytes 64
  (s.flashStore a b).raise F.BOOT_STAT.FLASH_ERR

/-- What follows a step that is done (R459, R463): the next step, S8 once S6 and S7 are both done, nothing after S4 in ROM-only
service. -/
def State.stepAfter (s : State) (n : Nat) : State :=
  match n with
  | 4 => if s.flag F.BOOT_STAT.ROM_ONLY then s else s.stepBegin 5
  | 6 => if s.stepDone 7 then s.stepBegin 8 else s
  | 7 => if s.stepDone 6 then s.stepBegin 8 else s
  | 8 => s.startComplete
  | n => s.stepBegin (n + 1)

/-- BOOT_STEP_DONE (R459): a step in progress completes its work, is marked done, and the next begins.
DEDUCED: log entry 84. -/
def execBootStepDone (n : StepId) (r : StepResult) (s : State) : Res :=
  let n := n.val
  .next (if !s.mayEnd n then s
    else
      let s := (s.endStep n r).markDone n
      let s := if r.flashOk then s else s.mirrorFails
      s.stepAfter n)

/-! ## What causes a start (R471, R473, R481 to R483) -/

/-- BOOT_STEP_TIMEOUT (R459): a step in progress runs past its limit, S4 only while PERST_N is high.
DEDUCED: log entry 84. -/
def execBootStepTimeout (n : StepId) (s : State) : Res :=
  .next (if s.inStep n.val && (n.val != 4 || s.hst.perstHigh) then s.startNow 2 else s)

/-- WATCHDOG_EXPIRY (R471): PERIOD ms have passed since the last kick; 0 disables. -/
def execWatchdogExpiry (s : State) : Res := .next (if s.fld F.BOOT_WDOG.PERIOD = 0 then s else s.startNow 2)

/-- The steps in progress marked interrupted (R473).
DEDUCED: log entry 71. -/
def State.markInterrupted (s : State) : State := s.each ((List.range 9).filter s.inStep) fun s n => s.markRecord 10 n

/-- RESET_N (R473): low for 1 µs. -/
def execResetN (s : State) : Res := .next (if s.boot.vinGood then s.markInterrupted.startNow 1 else s)

/-- The state with VIN and VIO good or not. -/
def State.setSupplies (s : State) (vin vio : Bool) : State := { s with boot := { s.boot with vinGood := vin, vioGood := vio } }

/-- VIN_POWER_ON (R471, R481): VIN rises through power-good.
DEDUCED: log entry 71. -/
def execVinPowerOn (s : State) : Res := .next ((s.vinKept.setSupplies true s.boot.vioGood).startNow 0)

/-- VIN_LOSS (R473, R483): nothing is marked, and the die is reset. -/
def execVinLoss (s : State) : Res := .next (s.vinKept.setSupplies false s.boot.vioGood)

/-- VIO_LOSS (R482): with VIN good, as RESET_N held low until VIO is good again. -/
def execVioLoss (s : State) : Res :=
  let t := s.setSupplies s.boot.vinGood false
  .next (if s.boot.vinGood && s.boot.vioGood then t.markInterrupted.startNow 1 else t)

/-- VIO_GOOD (R481, R482): a start that waited for VIO begins. -/
def execVioGood (s : State) : Res :=
  let t := s.setSupplies s.boot.vinGood true
  .next (match s.boot.held with
    | some k => if s.boot.vinGood then t.startNow k else t
    | none => t)

/-- PERST_N_RISING (R447, R459): PERST_N is high; S4 begins where S3 is done, and the PCIe wake source holds.
DEDUCED: log entry 61. -/
def execPerstNRising (s : State) : Res :=
  let t := ({ s with hst := { s.hst with perstHigh := true } }).wakeBy 0x002
  .next (if t.stepDone 3 && !t.stepBegun 4 then t.stepBegin 4 else t)

/-! ## The idle step (DESIGN CHOICE, log entry 3) -/

/-- One millisecond on the AON timer with nothing commanded: a power state entry past its point of no return is complete, a
latched sleep request whose conditions hold is acted on, what R396 keys over the last 1 ms is forgotten, and due completion
entries go out as far as there is room.
DESIGN CHOICE: log entry 3. -/
def State.idleTick (s : State) : State :=
  let s := s.closeEntry.actOnLatched
  ({ s with aonMs := s.aonMs + 1, rng := { s.rng with seen := [], finished := [] } }).postAll

end Sys2Proof.Machine
end

