-- ==== Sys2Proof/Machine/Branch.lean ====
section
/-!
DEFINITION. Branches and loops of the stream cores (R284, R291, R292).
-/
namespace Sys2Proof.Machine

/-- The target of a branch at `pc` (R283): pc + 4 × off20, modulo 2^64. -/
def branchTarget (pc : Nat) (off : BitVec 20) : Nat := (((pc : Int) + 4 * off.toInt) % 2 ^ 64).toNat

/-- BR (R284): x = 1 writes pc + 4 to ra; x = 0 requires ra = 0. -/
def execBr (n : CoreId) (ra : Rf) (x : Bool) (off : BitVec 20) (s : State) : Res :=
  laruf n s fun c =>
    if !x ∧ ra ≠ 0 then illegal
    else
      let c' := if x then c.setG ra (BitVec.ofNat 64 (c.pc + 4)) false else c
      .goto (s.setCore n c') (branchTarget c.pc off)

/-- A branch on whether ra is 0 (R284); a marked condition raises POISON (R282). -/
def branchZero (n : CoreId) (ra : Rf) (x : Bool) (off : BitVec 20) (taken : W64 → Bool) (s : State) : Res :=
  laruf n s fun c =>
    if x then illegal else if c.gm ra then poisoned
    else if taken (c.gv ra) then .goto s (branchTarget c.pc off) else .done s

/-- BZ (R284): branch if ra = 0. -/
def execBz (n : CoreId) (ra : Rf) (x : Bool) (off : BitVec 20) (s : State) : Res := branchZero n ra x off (· == 0) s

/-- BNZ (R284): branch if ra ≠ 0. -/
def execBnz (n : CoreId) (ra : Rf) (x : Bool) (off : BitVec 20) (s : State) : Res := branchZero n ra x off (· != 0) s

/-- BC (R291): branch if the condition holds; conditions other than QS and QC raise POISON with FM set (R282). -/
def execBc (n : CoreId) (cond : Rf) (x : Bool) (off : BitVec 20) (s : State) : Res :=
  laruf n s fun c =>
    match (if x then none else c.cond cond.toNat) with
    | none => illegal
    | some b =>
      if cond.toNat < 10 ∧ c.fm then poisoned
      else if b then .goto s (branchTarget c.pc off) else .done s

/-- LOOP (R292): the body runs ra[31:0] times. -/
def execLoop (n : CoreId) (ra : Rf) (x : Bool) (off : BitVec 20) (s : State) : Res :=
  laruf n s fun c =>
    let t := branchTarget c.pc off
    if x ∨ off.toInt ≤ 0 then illegal
    else if c.gm ra then poisoned
    else
      let k := (c.gv ra).toNat % 2 ^ 32
      if k = 0 ∨ t = c.pc + 4 then .goto s t
      else if 4 ≤ c.loops.length then .raise Exc.LOOP_DEPTH none 0
      else coreDone n s { c with loops := { start := c.pc + 4, stop := t, count := k } :: c.loops }

/-- JR (R284): pc = the value ra held before, rd = the address of the JR + 4. -/
def execJr (n : CoreId) (rd ra rb : Rf) (s : State) : Res :=
  laruf n s fun c =>
    if rb ≠ 0 then illegal
    else if c.gm ra then poisoned
    else if (c.gv ra).toNat % 4 ≠ 0 then .raise Exc.ALIGN (some (c.gv ra)) 0
    else .goto (s.setCore n (c.setG rd (BitVec.ofNat 64 (c.pc + 4)) false)) (c.gv ra).toNat

end Sys2Proof.Machine
end

