-- ==== Sys2Proof/Machine/HostRows.lean ====
section
/-!
DEFINITION. Accesses of the host: what each does, and when (R434, R447). In RUN it is done at once. In IDLE, and while a sleep is
entered, it wakes the formatter first; in DOZE HST holds it until the wake is over; in NAP and OFF the link brings none.
-/
namespace Sys2Proof.Machine

/-! ## What the accesses do -/

/-- The write of the alarm enables (R362): a source so enabled that holds fires at once. -/
def State.alarmEnables (s : State) (bits : BitVec 4) (holding : List AlarmSource) : State :=
  let t := (((s.setFlag F.KEY_CTL.VOLT_EN (bits.getLsbD 0)).setFlag F.KEY_CTL.CLK_EN (bits.getLsbD 1)).setFlag
    F.KEY_CTL.TEMP_EN (bits.getLsbD 2)).setFlag F.KEY_CTL.TAMPER_EN (bits.getLsbD 3)
  t.alarm (holding.filter fun a => !s.sourceOn a)

/-- An access of the debug aperture (R372): a read of `len` bytes, or a write. While the aperture is shut the request is unsupported;
in TV3200 mode a read that would deliver a marked byte is answered with completer abort (R256). -/
def State.bar2 (s : State) (addr len : Nat) (wr : Option (List Byte)) : State :=
  if !s.bar2On then s.emit (.unsupportedRequest 0 2 addr)
  else match wr with
    | some l => s.debugWrite addr l
    | none =>
      if s.busErr && s.debugMarked addr len then s.emit (.completerAbort addr)
      else (s.emit (.bar2Data addr ((List.range len).map fun k => s.debugByte (addr + k)))).nextFree

/-- A write of 1 to ACT (R433), which the engine takes while it is stopped. -/
def State.slotActivate (s : State) (slot : Nat) : State :=
  if s.flag F.TEAM_SLOT.ACT slot then s else if s.teamStopped then s.slotOn slot else s.raise F.TEAM_STAT.STOPPED_ONLY

/-- A 4-byte write through a window of 4-byte registers (R371). -/
def State.window4 (s : State) (off : BitVec 16) (f : State) : State :=
  if off.toNat % 4 ≠ 0 then s.raise F.HST_STAT.ACC_ERR else f

/-- What an access of the host does, of the rows that are one. -/
def State.hostEffect (s : State) : Instr → State
  | .registerWrite fn bar off len val hw => s.writeAccess fn bar off len val hw
  | .registerReadClear fn bar off len ev => s.readAccess fn bar off len ev
  | .channelEnable c => s.unlessHeld F.RDC_STAT.STOPPED_ONLY (s.chanEnable c)
  | .channelDisable c => s.unlessHeld F.RDC_STAT.STOPPED_ONLY (s.chanDisable c)
  | .handoff => s.unlessHeld F.RDC_STAT.STOPPED_ONLY s.handoff
  | .calGo grp => s.unlessHeld F.RDC_STAT.STOPPED_ONLY (s.calGo grp)
  | .sbGo => s.unlessHeld F.WRC_STAT.STOPPED_ONLY s.sbStart
  | .inhSw v => s.unlessHeld F.WRC_STAT.STOPPED_ONLY (s.setInhSw v)
  | .inhClr => s.unlessHeld F.WRC_STAT.STOPPED_ONLY s.tryClear
  | .wrcRunStop => s.unlessHeld F.WRC_STAT.STOPPED_ONLY s.wrcOff
  | .motRunStart => s.unlessHeld F.MOT_STAT.STOPPED_ONLY s.motOn
  | .motRunStop => s.unlessHeld F.MOT_STAT.STOPPED_ONLY s.motOff
  | .loopClose bits => s.unlessHeld F.MOT_STAT.STOPPED_ONLY (s.setClose ((s.fld F.MOT_LOOP.CLOSE).lor bits.toNat))
  | .loopOpen bits => s.unlessHeld F.MOT_STAT.STOPPED_ONLY (s.setClose ((s.fld F.MOT_LOOP.CLOSE).land (31 - bits.toNat)))
  | .motWrap w => s.unlessHeld F.MOT_STAT.STOPPED_ONLY (s.setWrap w.toNat)
  | .cmpRunStart => s.cmpOn
  | .cmpRunStop => s.cmpOff
  | .poolRunStart => s.poolOn
  | .poolRunStop => s.poolOff
  | .queueEnable q => s.queueOn q
  | .queueDisable q => s.queueOff q
  | .coreStart n => s.coreRunOn n
  | .coreStopRequest n => s.coreRunOff n
  | .coreForceStop n => s.coreToStopped n
  | .coreSignalWrite n => s.signal n
  | .programLoad => s.loadGo
  | .ldmWindowWrite off val => s.window4 off (s.windowWrite off.toNat val)
  | .cipLockFree => s.lockFree
  | .cipRunStop => s.cipOff
  | .secure holding => (s.raise F.KEY_CTL.SECURE).alarm holding
  | .alarmEnableWrite bits holding => s.alarmEnables bits holding
  | .sqDoorbell fn pair v => s.sqBell fn pair v.toNat
  | .cqDoorbell fn pair v => (s.cqBell fn pair v.toNat).postAll
  | .queuePairEnable fn pair => s.pairOn fn pair
  | .functionLevelReset fn => if s.fnActive fn then s.flr fn else s
  | .hstRunStop => s.setFlag F.HST_CTL.RUN false
  | .bar2Access addr len wr => s.bar2 addr len wr
  | .portTrain p => s.portOn p
  | .portPark p => s.portOff p
  | .serveSend => s.serveGo
  | .teamRunStart => if s.flag F.TEAM_CTL.RUN then s else s.teamRunOn
  | .teamRunStop => s.teamRunOff
  | .teamSlotActivate slot => s.slotActivate slot
  | .sleepRequest target => s.sleepGo target.toNat
  | .sleepCancel => s.sleepGo 0
  | .aonWindowWrite off val => s.window4 off (s.aonWindow off.toNat val)
  | .wdogKick => s
  | .stickyClear bits => s.clearSticky bits
  | .flashErase ok => s.flashErase ok
  | .flashProgram ok => s.flashProgram ok
  | .flashRead => s.flashRead
  | _ => s

/-! ## When (R447) -/

/-- The sources of a wake by an access: a TLP, and a register access or doorbell. -/
def accessSource : BitVec 10 := 0x101

/-- A write of `PWR_CMD`: a sleep request or its cancelling, which R450 has meet wakes and is none itself. -/
def isPwrCmd : Instr → Bool
  | .sleepRequest _ => true
  | .sleepCancel => true
  | .registerWrite fn bar off _ _ _ => fn == 0 && bar == 0 && off == 0x100014
  | _ => false

/-- An access of the host arrives.
DEDUCED: log entry 61. -/
def State.hostRow (s : State) (i : Instr) : State :=
  if s.inRun then s.hostEffect i
  else if 2 < s.pstate then s
  else if isPwrCmd i then s.hostEffect i
  else
    let t := s.wakeBy accessSource
    if t.inRun then t.hostEffect i else { t with hst := { t.hst with heldTlps := t.hst.heldTlps ++ [i] } }

/-- The accesses held in DOZE are done in the order in which they came. -/
def State.releaseTlps (s : State) : State :=
  let l := s.hst.heldTlps
  { s with hst := { s.hst with heldTlps := [] } }.each l State.hostRow

/-- DOZE_EXIT (R441): ports train again, and what HST held is answered (R447). -/
def execDozeExit (s : State) : Res :=
  let s := s.closeEntry
  .next (if s.pwr.trans = .exiting .doze then s.retrain.running.releaseTlps else s)

/-! ## The rows -/

/-- REGISTER_WRITE (R3, R371). -/
def execRegisterWrite (fn : FnId) (bar off len : Nat) (val hwSet : W32) (s : State) : Res :=
  .next (s.hostRow (.registerWrite fn bar off len val hwSet))

/-- REGISTER_READ_CLEAR (R3, R5, R112, R371). -/
def execRegisterReadClear (fn : FnId) (bar off len : Nat) (hwEvent : W32) (s : State) : Res :=
  .next (s.hostRow (.registerReadClear fn bar off len hwEvent))

/-- CHANNEL_ENABLE (R138). -/
def execChannelEnable (c : Chan) (s : State) : Res := .next (s.hostRow (.channelEnable c))

/-- CHANNEL_DISABLE (R150). -/
def execChannelDisable (c : Chan) (s : State) : Res := .next (s.hostRow (.channelDisable c))

/-- HANDOFF (R137). -/
def execHandoff (s : State) : Res := .next (s.hostRow .handoff)

/-- CAL_GO (R149). -/
def execCalGo (grp : Group) (s : State) : Res := .next (s.hostRow (.calGo grp))

/-- SB_GO (R161). -/
def execSbGo (s : State) : Res := .next (s.hostRow .sbGo)

/-- INH_SW (R173). -/
def execInhSw (v : Bool) (s : State) : Res := .next (s.hostRow (.inhSw v))

/-- INH_CLR (R173). -/
def execInhClr (s : State) : Res := .next (s.hostRow .inhClr)

/-- WRC_RUN_STOP (R174). -/
def execWrcRunStop (s : State) : Res := .next (s.hostRow .wrcRunStop)

/-- MOT_RUN_START (R195). -/
def execMotRunStart (s : State) : Res := .next (s.hostRow .motRunStart)

/-- MOT_RUN_STOP (R202). -/
def execMotRunStop (s : State) : Res := .next (s.hostRow .motRunStop)

/-- LOOP_CLOSE (R200). -/
def execLoopClose (bits : BitVec 5) (s : State) : Res := .next (s.hostRow (.loopClose bits))

/-- LOOP_OPEN (R200). -/
def execLoopOpen (bits : BitVec 5) (s : State) : Res := .next (s.hostRow (.loopOpen bits))

/-- MOT_WRAP (R203). -/
def execMotWrap (w : BitVec 9) (s : State) : Res := .next (s.hostRow (.motWrap w))

/-- CMP_RUN_START (R245). -/
def execCmpRunStart (s : State) : Res := .next (s.hostRow .cmpRunStart)

/-- CMP_RUN_STOP (R245). -/
def execCmpRunStop (s : State) : Res := .next (s.hostRow .cmpRunStop)

/-- POOL_RUN_START (R261). -/
def execPoolRunStart (s : State) : Res := .next (s.hostRow .poolRunStart)

/-- POOL_RUN_STOP (R261). -/
def execPoolRunStop (s : State) : Res := .next (s.hostRow .poolRunStop)

/-- QUEUE_ENABLE (R268). -/
def execQueueEnable (q : QueueId) (s : State) : Res := .next (s.hostRow (.queueEnable q))

/-- QUEUE_DISABLE (R499). -/
def execQueueDisable (q : QueueId) (s : State) : Res := .next (s.hostRow (.queueDisable q))

/-- CORE_START (R311). -/
def execCoreStart (n : CoreId) (s : State) : Res := .next (s.hostRow (.coreStart n))

/-- CORE_STOP_REQUEST (R312). -/
def execCoreStopRequest (n : CoreId) (s : State) : Res := .next (s.hostRow (.coreStopRequest n))

/-- CORE_FORCE_STOP (R312): a write of 1 to FORCE. -/
def execCoreForceStop (n : CoreId) (s : State) : Res := .next (s.hostRow (.coreForceStop n))

/-- CORE_SIGNAL_WRITE (R300): a write of 1 to SIGNAL. -/
def execCoreSignalWrite (n : CoreId) (s : State) : Res := .next (s.hostRow (.coreSignalWrite n))

/-- PROGRAM_LOAD (R314). -/
def execProgramLoad (s : State) : Res := .next (s.hostRow .programLoad)

/-- LDM_WINDOW_WRITE (R315), at a 4-byte aligned offset of the window (R371). -/
def execLdmWindowWrite (off : BitVec 16) (val : W32) (s : State) : Res := .next (s.hostRow (.ldmWindowWrite off val))

/-- CIP_LOCK_FREE (R350). -/
def execCipLockFree (s : State) : Res := .next (s.hostRow .cipLockFree)

/-- CIP_RUN_STOP (R366). -/
def execCipRunStop (s : State) : Res := .next (s.hostRow .cipRunStop)

/-- SECURE (R362): a write of 1 to SECURE enables every source; those that hold fire at once.
DEDUCED: log entry 69. -/
def execSecure (holding : List AlarmSource) (s : State) : Res := .next (s.hostRow (.secure holding))

/-- ALARM_ENABLE_WRITE (R362): the four enable bits written; a source so enabled that holds fires at once. -/
def execAlarmEnableWrite (bits : BitVec 4) (holding : List AlarmSource) (s : State) : Res :=
  .next (s.hostRow (.alarmEnableWrite bits holding))

/-- SQ_DOORBELL (R375). -/
def execSqDoorbell (fn pair : FnId) (v : W16) (s : State) : Res := .next (s.hostRow (.sqDoorbell fn pair v))

/-- CQ_DOORBELL (R375). -/
def execCqDoorbell (fn pair : FnId) (v : W16) (s : State) : Res := .next (s.hostRow (.cqDoorbell fn pair v))

/-- QUEUE_PAIR_ENABLE (R374). -/
def execQueuePairEnable (fn pair : FnId) (s : State) : Res := .next (s.hostRow (.queuePairEnable fn pair))

/-- FUNCTION_LEVEL_RESET (R383), of a function that is active. -/
def execFunctionLevelReset (fn : FnId) (s : State) : Res := .next (s.hostRow (.functionLevelReset fn))

/-- HST_RUN_STOP (R387). -/
def execHstRunStop (s : State) : Res := .next (s.hostRow .hstRunStop)

/-- BAR2_ACCESS (R372): a read of `len` bytes, or a write. -/
def execBar2Access (addr len : Nat) (wr : Option (List Byte)) (s : State) : Res := .next (s.hostRow (.bar2Access addr len wr))

/-- PORT_TRAIN (R398). -/
def execPortTrain (p : Port) (s : State) : Res := .next (s.hostRow (.portTrain p))

/-- PORT_PARK (R398). -/
def execPortPark (p : Port) (s : State) : Res := .next (s.hostRow (.portPark p))

/-- SERVE_SEND (R400). -/
def execServeSend (s : State) : Res := .next (s.hostRow .serveSend)

/-- TEAM_RUN_START (R433). -/
def execTeamRunStart (s : State) : Res := .next (s.hostRow .teamRunStart)

/-- TEAM_RUN_STOP (R433). -/
def execTeamRunStop (s : State) : Res := .next (s.hostRow .teamRunStop)

/-- TEAM_SLOT_ACTIVATE (R433): a write of 1 to ACT. -/
def execTeamSlotActivate (slot : Fin 2) (s : State) : Res := .next (s.hostRow (.teamSlotActivate slot))

/-- SLEEP_REQUEST (R438). -/
def execSleepRequest (target : BitVec 3) (s : State) : Res := .next (s.hostRow (.sleepRequest target))

/-- SLEEP_CANCEL (R438). -/
def execSleepCancel (s : State) : Res := .next (s.hostRow .sleepCancel)

/-- AON_WINDOW_WRITE (R451), 4 bytes aligned (R371). -/
def execAonWindowWrite (off : BitVec 16) (val : W32) (s : State) : Res := .next (s.hostRow (.aonWindowWrite off val))

/-- WDOG_KICK (R474): the count it restarts is time, of which the model holds only the expiry.
DEDUCED: log entry 74. -/
def execWdogKick (s : State) : Res := .next (s.hostRow .wdogKick)

/-- STICKY_CLEAR (R461). -/
def execStickyClear (bits : BitVec 9) (s : State) : Res := .next (s.hostRow (.stickyClear bits))

/-- FLASH_ERASE (R468). -/
def execFlashErase (ok : Bool) (s : State) : Res := .next (s.hostRow (.flashErase ok))

/-- FLASH_PROGRAM (R468). -/
def execFlashProgram (ok : Bool) (s : State) : Res := .next (s.hostRow (.flashProgram ok))

/-- FLASH_READ (R462). -/
def execFlashRead (s : State) : Res := .next (s.hostRow .flashRead)

end Sys2Proof.Machine
end

