-- ==== Sys2Proof/Machine/LoadStore.lean ====
section
/-!
DEFINITION. Local and tile loads and stores of the stream cores (R286 to R288, R251 to R256, R281, R282).
-/
namespace Sys2Proof.Machine

/-- LDL (R287). -/
def execLdl (n : CoreId) (rt ra : Rf) (size : BitVec 3) (off : BitVec 13) (s : State) : Res :=
  laruf n s fun c =>
    if sizeWide size ∧ 15 < rt.toNat then illegal
    else if c.gm ra then poisoned
    else match ldmAddress (c.gv ra) size off with
      | .error (e, a) => .raise e (some a) 0
      | .ok a =>
        let k := sizeBytes size
        coreDone n s (c.load rt (sizeSigned size) (sizeWide size) (c.ldmBytes a k) (c.ldmMarked a k))

/-- STL (R287); sizes 5 to 7 are ILLEGAL on a store (R286). -/
def execStl (n : CoreId) (rt ra : Rf) (size : BitVec 3) (off : BitVec 13) (s : State) : Res :=
  laruf n s fun c =>
    if sizeSigned size ∨ (sizeWide size ∧ 15 < rt.toNat) then illegal
    else if c.gm ra then poisoned
    else match ldmAddress (c.gv ra) size off with
      | .error (e, a) => .raise e (some a) 0
      | .ok a => let (l, m) := c.stored rt size; coreDone n s (c.ldmStore a l m)

/-- The offset of a tile access: ra[31:0] + displacement, without wrapping (R288). -/
def tileOffset (base : W64) (size : BitVec 3) (off : BitVec 13) : Int := taOff base + displacement size off

/-- The tile address of an access, for FADDR. -/
def tileFaddr (base : W64) (o : Int) : W64 := mkTa (taHandle base) (o % 2 ^ 32).toNat

/-- LDT (R288): the checks on use, then the core stalls until the data returns (R278). -/
def execLdt (n : CoreId) (rt ra : Rf) (size : BitVec 3) (off : BitVec 13) (s : State) : Res :=
  laruf n s fun c =>
    if sizeWide size ∧ 15 < rt.toNat then illegal
    else if c.gm ra then poisoned
    else
      let h := taHandle (c.gv ra)
      let o := tileOffset (c.gv ra) size off
      let k := sizeBytes size
      match s.checkUse h o k k (some Owner.cores) with
      | some e => .raise Exc.ACCESS (some (tileFaddr (c.gv ra) o)) e
      | none => .stay (s.setCore n { c with stall := .load rt k (sizeSigned size) (sizeWide size) h o.toNat })

/-- The data of an LDT return (R278): verification at use (R252), BUSERR for a marked byte in bus-error mode (R256), else the
destination takes the bytes and their mark (R281). A core that waits for no load is not affected. -/
def execTileLoadReturn (n : CoreId) (s : State) : Res :=
  whileClocked s <| match (s.core n).run, (s.core n).stall with
  | .running, .load rt k signed wide h o =>
    let (s, l, m) := s.bufRead h o k
    let c := { s.core n with stall := .none }
    let s := s.setCore n c
    if m && s.busErr then .next ((s.exception n Exc.BUSERR (some (mkTa h o)) 0).coreBoundary n)
    else .next ((s.setCore n (c.load rt signed wide l m).advance).coreBoundary n)
  | _, _ => .next s

/-- STT (R288): the checks on use, then the store is applied in program order (R289). A store into the transactional image
ends BAD_OWNER (R329). -/
def execStt (n : CoreId) (rt ra : Rf) (size : BitVec 3) (off : BitVec 13) (s : State) : Res :=
  laruf n s fun c =>
    if sizeSigned size ∨ (sizeWide size ∧ 15 < rt.toNat) then illegal
    else if c.gm ra then poisoned
    else
      let h := taHandle (c.gv ra)
      let o := tileOffset (c.gv ra) size off
      let k := sizeBytes size
      match s.checkUse h o k k (some Owner.cores) with
      | some e => .raise Exc.ACCESS (some (tileFaddr (c.gv ra) o)) e
      | none =>
        if s.isImage h then .raise Exc.ACCESS (some (tileFaddr (c.gv ra) o)) St.BAD_OWNER
        else let (l, m) := c.stored rt size; .done (s.bufWrite h o.toNat l m)

end Sys2Proof.Machine
end

