-- ==== Sys2Proof/Machine/TileOps.lean ====
section
/-!
DEFINITION. The commands of the TIL engine: COPY, FILL and CHECK (R318, R323, R325).
-/
namespace Sys2Proof.Machine

/-- A TIL COPY whose ranges pass R264 (R325): the source through verification at use, then the destination, piece by piece with
the marks of the source's tiles; the destination buffer is provisional when the source's is (R355). In TV3200 mode a marked
source stops the command before any byte is written (R256). -/
def State.tilCopy (s : State) (c : Cmd) : State :=
  let a := dA c.desc
  let b := dB c.desc
  let n := dC c.desc
  let (s, _, m) := s.taRead a n
  if m && s.busErr then s.finish c St.POISON
  else
    let s := if (s.bufOf (taHandle a)).provisional then s.setProvisional (taHandle b) true else s
    let s := s.taWritePieces b (s.taPieces a n)
    s.finish c (if m then St.POISON else St.OK) 0 n m

/-- COPY (R325). -/
def execCopy (i : Nat) (s : State) : Res :=
  runCmd 8 i 1 s fun c s =>
    let n := dC c.desc
    if n = 0 then s.finish c St.OK
    else match firstBad [s.engCheck c (dA c.desc) n, s.engCheckW c (dB c.desc) n] with
      | some e => s.finish c e
      | none => s.tilCopy c

/-- FILL (R318): the fill byte of ARG over the range. -/
def execFill (i : Nat) (s : State) : Res :=
  runCmd 8 i 2 s fun c s =>
    let n := dC c.desc
    if n = 0 then s.finish c St.OK
    else match s.engCheckW c (dA c.desc) n with
      | some e => s.finish c e
      | none =>
        (s.taWrite (dA c.desc) (List.replicate n (BitVec.ofNat 8 (dArg c.desc))) false).finish c St.OK 0 n

/-- CHECK (R325): the CRC-32C of the range, compared with bytes 28 to 31 where ARG bit 0 asks for it; a range with the poison
mark ends POISON with result 0 and flag bit 0 clear. -/
def execCheck (i : Nat) (s : State) : Res :=
  runCmd 8 i 3 s fun c s =>
    let n := dC c.desc
    if n = 0 then s.finish c St.OK
    else match s.engCheck c (dA c.desc) n with
      | some e => s.finish c e
      | none =>
        let (s, l, m) := s.taRead (dA c.desc) n
        let v := (crc32c l).toNat
        if m then s.finish c St.POISON
        else s.finish c (if (dArg c.desc).testBit 0 ∧ v ≠ dD c.desc then St.CRC_FAIL else St.OK) 0 v

end Sys2Proof.Machine
end

