-- ==== Sys2Proof/Machine/Dispatch.lean ====
section
/-!
DEFINITION. Which meaning each command has.
-/
namespace Sys2Proof.Machine

/-- The effect of a command on everything but the queue. -/
def exec (i : Instr) (s : State) : Host.Outcome State Fault Refusal :=
  match i with
  | .registerWrite fn bar off len val hwSet => Sys2Proof.Machine.execRegisterWrite fn bar off len val hwSet s
  | .registerReadClear fn bar off len hwEvent => Sys2Proof.Machine.execRegisterReadClear fn bar off len hwEvent s
  | .aonXtalChangeover => Sys2Proof.Machine.execAonXtalChangeover s
  | .aonXtalLost => Sys2Proof.Machine.execAonXtalLost s
  | .yealmStart => Sys2Proof.Machine.execYealmStart s
  | .sealBegin => Sys2Proof.Machine.execSealBegin s
  | .uf1LocatorWrite => Sys2Proof.Machine.execUf1LocatorWrite s
  | .resumeMarkSearch c lpos adc => Sys2Proof.Machine.execResumeMarkSearch c lpos adc s
  | .zoneCapture c => Sys2Proof.Machine.execZoneCapture c s
  | .battenGuard c adc => Sys2Proof.Machine.execBattenGuard c adc s
  | .miniPreambleRestore c adc => Sys2Proof.Machine.execMiniPreambleRestore c adc s
  | .timingLockLoss c adc => Sys2Proof.Machine.execTimingLockLoss c adc s
  | .longDefectEnd c adc => Sys2Proof.Machine.execLongDefectEnd c adc s
  | .courseFrame c adc => Sys2Proof.Machine.execCourseFrame c adc s
  | .c1Decode c gaps => Sys2Proof.Machine.execC1Decode c gaps s
  | .yealmDecode y => Sys2Proof.Machine.execYealmDecode y s
  | .c2Retry y => Sys2Proof.Machine.execC2Retry y s
  | .channelEnable c => Sys2Proof.Machine.execChannelEnable c s
  | .channelDisable c => Sys2Proof.Machine.execChannelDisable c s
  | .handoff => Sys2Proof.Machine.execHandoff s
  | .handoffChannelSwitch c lpos => Sys2Proof.Machine.execHandoffChannelSwitch c lpos s
  | .calGo grp => Sys2Proof.Machine.execCalGo grp s
  | .calibrationDone grp ok => Sys2Proof.Machine.execCalibrationDone grp ok s
  | .sidebandDirection => Sys2Proof.Machine.execSidebandDirection s
  | .gateOn c ago => Sys2Proof.Machine.execGateOn c ago s
  | .gateOff c => Sys2Proof.Machine.execGateOff c s
  | .wrapEndBlock => Sys2Proof.Machine.execWrapEndBlock s
  | .sbGo => Sys2Proof.Machine.execSbGo s
  | .sidebandReply link reply => Sys2Proof.Machine.execSidebandReply link reply s
  | .sidebandStatusRead link reply => Sys2Proof.Machine.execSidebandStatusRead link reply s
  | .courseVerify c framed => Sys2Proof.Machine.execCourseVerify c framed s
  | .sealVerify => Sys2Proof.Machine.execSealVerify s
  | .shockInput low => Sys2Proof.Machine.execShockInput low s
  | .inhSw v => Sys2Proof.Machine.execInhSw v s
  | .inhClr => Sys2Proof.Machine.execInhClr s
  | .inhibitTimeout => Sys2Proof.Machine.execInhibitTimeout s
  | .wrcRunStop => Sys2Proof.Machine.execWrcRunStop s
  | .battenDecode c => Sys2Proof.Machine.execBattenDecode c s
  | .headPositionSample phase => Sys2Proof.Machine.execHeadPositionSample phase s
  | .motTick inp => Sys2Proof.Machine.execMotTick inp s
  | .motOverrun => Sys2Proof.Machine.execMotOverrun s
  | .motDiFrame line frame => Sys2Proof.Machine.execMotDiFrame line frame s
  | .motRunStart => Sys2Proof.Machine.execMotRunStart s
  | .motRunStop => Sys2Proof.Machine.execMotRunStop s
  | .loopClose bits => Sys2Proof.Machine.execLoopClose bits s
  | .loopOpen bits => Sys2Proof.Machine.execLoopOpen bits s
  | .motWrap w => Sys2Proof.Machine.execMotWrap w s
  | .accRead replies => Sys2Proof.Machine.execAccRead replies s
  | .paceUpdate => Sys2Proof.Machine.execPaceUpdate s
  | .backhitchDecelerate => Sys2Proof.Machine.execBackhitchDecelerate s
  | .backhitchResume => Sys2Proof.Machine.execBackhitchResume s
  | .turnaround => Sys2Proof.Machine.execTurnaround s
  | .compress lane body => Sys2Proof.Machine.execCompress lane body s
  | .decompress lane => Sys2Proof.Machine.execDecompress lane s
  | .ctxInit lane => Sys2Proof.Machine.execCtxInit lane s
  | .ctxSave lane => Sys2Proof.Machine.execCtxSave lane s
  | .cmpRunStart => Sys2Proof.Machine.execCmpRunStart s
  | .cmpRunStop => Sys2Proof.Machine.execCmpRunStop s
  | .scrubVisit => Sys2Proof.Machine.execScrubVisit s
  | .poolRunStart => Sys2Proof.Machine.execPoolRunStart s
  | .poolRunStop => Sys2Proof.Machine.execPoolRunStop s
  | .queueEnable q => Sys2Proof.Machine.execQueueEnable q s
  | .queueDisable q => Sys2Proof.Machine.execQueueDisable q s
  | .add n rd ra rb => Sys2Proof.Machine.execAdd n rd ra rb s
  | .sub n rd ra rb => Sys2Proof.Machine.execSub n rd ra rb s
  | .and n rd ra rb => Sys2Proof.Machine.execAnd n rd ra rb s
  | .or n rd ra rb => Sys2Proof.Machine.execOr n rd ra rb s
  | .xor n rd ra rb => Sys2Proof.Machine.execXor n rd ra rb s
  | .shl n rd ra rb => Sys2Proof.Machine.execShl n rd ra rb s
  | .shr n rd ra rb => Sys2Proof.Machine.execShr n rd ra rb s
  | .sar n rd ra rb => Sys2Proof.Machine.execSar n rd ra rb s
  | .ror n rd ra rb => Sys2Proof.Machine.execRor n rd ra rb s
  | .mul n rd ra rb => Sys2Proof.Machine.execMul n rd ra rb s
  | .mulhu n rd ra rb => Sys2Proof.Machine.execMulhu n rd ra rb s
  | .cmp n rd ra rb => Sys2Proof.Machine.execCmp n rd ra rb s
  | .slt n rd ra rb => Sys2Proof.Machine.execSlt n rd ra rb s
  | .sltu n rd ra rb => Sys2Proof.Machine.execSltu n rd ra rb s
  | .min n rd ra rb => Sys2Proof.Machine.execMin n rd ra rb s
  | .max n rd ra rb => Sys2Proof.Machine.execMax n rd ra rb s
  | .minu n rd ra rb => Sys2Proof.Machine.execMinu n rd ra rb s
  | .maxu n rd ra rb => Sys2Proof.Machine.execMaxu n rd ra rb s
  | .clz n rd ra rb => Sys2Proof.Machine.execClz n rd ra rb s
  | .popc n rd ra rb => Sys2Proof.Machine.execPopc n rd ra rb s
  | .bswap n rd ra rb => Sys2Proof.Machine.execBswap n rd ra rb s
  | .sel n rd ra rb => Sys2Proof.Machine.execSel n rd ra rb s
  | .addi n rd ra sub imm => Sys2Proof.Machine.execAddi n rd ra sub imm s
  | .andi n rd ra sub imm => Sys2Proof.Machine.execAndi n rd ra sub imm s
  | .ori n rd ra sub imm => Sys2Proof.Machine.execOri n rd ra sub imm s
  | .xori n rd ra sub imm => Sys2Proof.Machine.execXori n rd ra sub imm s
  | .shli n rd ra imm => Sys2Proof.Machine.execShli n rd ra imm s
  | .shri n rd ra imm => Sys2Proof.Machine.execShri n rd ra imm s
  | .sari n rd ra imm => Sys2Proof.Machine.execSari n rd ra imm s
  | .rori n rd ra imm => Sys2Proof.Machine.execRori n rd ra imm s
  | .movi n rd ra imm => Sys2Proof.Machine.execMovi n rd ra imm s
  | .movs n rd ra imm => Sys2Proof.Machine.execMovs n rd ra imm s
  | .cmpi n rd ra sub imm => Sys2Proof.Machine.execCmpi n rd ra sub imm s
  | .ldl n rt ra size off => Sys2Proof.Machine.execLdl n rt ra size off s
  | .stl n rt ra size off => Sys2Proof.Machine.execStl n rt ra size off s
  | .ldt n rt ra size off => Sys2Proof.Machine.execLdt n rt ra size off s
  | .tileLoadReturn n => Sys2Proof.Machine.execTileLoadReturn n s
  | .stt n rt ra size off => Sys2Proof.Machine.execStt n rt ra size off s
  | .crc32c n rd ra rb width => Sys2Proof.Machine.execCrc32c n rd ra rb width s
  | .wmov n rd ra rb => Sys2Proof.Machine.execWmov n rd ra rb s
  | .wxor n rd ra rb => Sys2Proof.Machine.execWxor n rd ra rb s
  | .wand n rd ra rb => Sys2Proof.Machine.execWand n rd ra rb s
  | .wor n rd ra rb => Sys2Proof.Machine.execWor n rd ra rb s
  | .wfrom n rd ra rb => Sys2Proof.Machine.execWfrom n rd ra rb s
  | .wlo n rd ra rb => Sys2Proof.Machine.execWlo n rd ra rb s
  | .whi n rd ra rb => Sys2Proof.Machine.execWhi n rd ra rb s
  | .clmulLl n rd ra rb => Sys2Proof.Machine.execClmulLl n rd ra rb s
  | .clmulHl n rd ra rb => Sys2Proof.Machine.execClmulHl n rd ra rb s
  | .clmulLh n rd ra rb => Sys2Proof.Machine.execClmulLh n rd ra rb s
  | .clmulHh n rd ra rb => Sys2Proof.Machine.execClmulHh n rd ra rb s
  | .ghred n rd ra rb => Sys2Proof.Machine.execGhred n rd ra rb s
  | .xtsmul n rd ra rb => Sys2Proof.Machine.execXtsmul n rd ra rb s
  | .inc32 n rd ra rb => Sys2Proof.Machine.execInc32 n rd ra rb s
  | .brevb n rd ra rb => Sys2Proof.Machine.execBrevb n rd ra rb s
  | .tageq n rd ra rb => Sys2Proof.Machine.execTageq n rd ra rb s
  | .bswapw n rd ra rb => Sys2Proof.Machine.execBswapw n rd ra rb s
  | .br n ra x off => Sys2Proof.Machine.execBr n ra x off s
  | .bz n ra x off => Sys2Proof.Machine.execBz n ra x off s
  | .bnz n ra x off => Sys2Proof.Machine.execBnz n ra x off s
  | .bc n cond x off => Sys2Proof.Machine.execBc n cond x off s
  | .loop n ra x off => Sys2Proof.Machine.execLoop n ra x off s
  | .jr n rd ra rb => Sys2Proof.Machine.execJr n rd ra rb s
  | .qput n rd ra rb => Sys2Proof.Machine.execQput n rd ra rb s
  | .qget n rd ra rb => Sys2Proof.Machine.execQget n rd ra rb s
  | .qcnt n rd ra rb => Sys2Proof.Machine.execQcnt n rd ra rb s
  | .balloc n rd ra rb => Sys2Proof.Machine.execBalloc n rd ra rb s
  | .bfree n rd ra rb => Sys2Proof.Machine.execBfree n rd ra rb s
  | .issue n rd ra target mode cq => Sys2Proof.Machine.execIssue n rd ra target mode cq s
  | .issueAccept n => Sys2Proof.Machine.execIssueAccept n s
  | .wait n rd ra rb => Sys2Proof.Machine.execWait n rd ra rb s
  | .waitReturn n timeout => Sys2Proof.Machine.execWaitReturn n timeout s
  | .timerEvent n => Sys2Proof.Machine.execTimerEvent n s
  | .pwrhint n rd ra sub imm => Sys2Proof.Machine.execPwrhint n rd ra sub imm s
  | .txb n rd ra rb => Sys2Proof.Machine.execTxb n rd ra rb s
  | .txc n rd ra rb => Sys2Proof.Machine.execTxc n rd ra rb s
  | .txCommit n => Sys2Proof.Machine.execTxCommit n s
  | .txCapacityTimeout n => Sys2Proof.Machine.execTxCapacityTimeout n s
  | .txa n rd ra rb => Sys2Proof.Machine.execTxa n rd ra rb s
  | .tset n rd ra rb => Sys2Proof.Machine.execTset n rd ra rb s
  | .nop n rd ra rb => Sys2Proof.Machine.execNop n rd ra rb s
  | .halt n rd ra rb => Sys2Proof.Machine.execHalt n rd ra rb s
  | .mfs n rd ra rb => Sys2Proof.Machine.execMfs n rd ra rb s
  | .mts n rd ra rb => Sys2Proof.Machine.execMts n rd ra rb s
  | .sig n rd ra rb => Sys2Proof.Machine.execSig n rd ra rb s
  | .trap n rd ra rb => Sys2Proof.Machine.execTrap n rd ra rb s
  | .eret n rd ra rb => Sys2Proof.Machine.execEret n rd ra rb s
  | .pchk n rd ra rb => Sys2Proof.Machine.execPchk n rd ra rb s
  | .pchkw n rd ra rb => Sys2Proof.Machine.execPchkw n rd ra rb s
  | .coreStart n => Sys2Proof.Machine.execCoreStart n s
  | .coreStopRequest n => Sys2Proof.Machine.execCoreStopRequest n s
  | .coreGraceExpiry n => Sys2Proof.Machine.execCoreGraceExpiry n s
  | .coreForceStop n => Sys2Proof.Machine.execCoreForceStop n s
  | .coreSignalWrite n => Sys2Proof.Machine.execCoreSignalWrite n s
  | .programLoad => Sys2Proof.Machine.execProgramLoad s
  | .programLoadDone => Sys2Proof.Machine.execProgramLoadDone s
  | .ldmWindowWrite off val => Sys2Proof.Machine.execLdmWindowWrite off val s
  | .completionPut j => Sys2Proof.Machine.execCompletionPut j s
  | .encode j => Sys2Proof.Machine.execEncode j s
  | .write j => Sys2Proof.Machine.execWrite j s
  | .seal j => Sys2Proof.Machine.execSeal j s
  | .read j => Sys2Proof.Machine.execRead j s
  | .fetch j r => Sys2Proof.Machine.execFetch j r s
  | .deliver j => Sys2Proof.Machine.execDeliver j s
  | .complete j => Sys2Proof.Machine.execComplete j s
  | .msixMessage fn pair => Sys2Proof.Machine.execMsixMessage fn pair s
  | .send p j => Sys2Proof.Machine.execSend p j s
  | .sendReceiptTimeout msg => Sys2Proof.Machine.execSendReceiptTimeout msg s
  | .postRx p j => Sys2Proof.Machine.execPostRx p j s
  | .keyImport j => Sys2Proof.Machine.execKeyImport j s
  | .erase j => Sys2Proof.Machine.execErase j s
  | .attest j => Sys2Proof.Machine.execAttest j s
  | .copy j => Sys2Proof.Machine.execCopy j s
  | .fill j => Sys2Proof.Machine.execFill j s
  | .check j => Sys2Proof.Machine.execCheck j s
  | .encrypt j => Sys2Proof.Machine.execEncrypt j s
  | .decrypt j => Sys2Proof.Machine.execDecrypt j s
  | .cipLockTake => Sys2Proof.Machine.execCipLockTake s
  | .cipLockIdle => Sys2Proof.Machine.execCipLockIdle s
  | .cipLockFree => Sys2Proof.Machine.execCipLockFree s
  | .cipRunStop => Sys2Proof.Machine.execCipRunStop s
  | .keyAlarm src => Sys2Proof.Machine.execKeyAlarm src s
  | .secure holding => Sys2Proof.Machine.execSecure holding s
  | .alarmEnableWrite bits holding => Sys2Proof.Machine.execAlarmEnableWrite bits holding s
  | .sqDoorbell fn pair v => Sys2Proof.Machine.execSqDoorbell fn pair v s
  | .cqDoorbell fn pair v => Sys2Proof.Machine.execCqDoorbell fn pair v s
  | .workBatchFetch fn pair items => Sys2Proof.Machine.execWorkBatchFetch fn pair items s
  | .queuePairEnable fn pair => Sys2Proof.Machine.execQueuePairEnable fn pair s
  | .functionLevelReset fn => Sys2Proof.Machine.execFunctionLevelReset fn s
  | .perstN => Sys2Proof.Machine.execPerstN s
  | .hstRunStop => Sys2Proof.Machine.execHstRunStop s
  | .bar2Access addr len wr => Sys2Proof.Machine.execBar2Access addr len wr s
  | .pcieLinkUp speed width => Sys2Proof.Machine.execPcieLinkUp speed width s
  | .identify w => Sys2Proof.Machine.execIdentify w s
  | .openStream w => Sys2Proof.Machine.execOpenStream w s
  | .closeStream w => Sys2Proof.Machine.execCloseStream w s
  | .commit w plans => Sys2Proof.Machine.execCommit w plans s
  | .mount w t => Sys2Proof.Machine.execMount w t s
  | .unload w => Sys2Proof.Machine.execUnload w s
  | .locate w => Sys2Proof.Machine.execLocate w s
  | .writeRecord w => Sys2Proof.Machine.execWriteRecord w s
  | .importKey w => Sys2Proof.Machine.execImportKey w s
  | .readRecord w => Sys2Proof.Machine.execReadRecord w s
  | .readLog w => Sys2Proof.Machine.execReadLog w s
  | .ringFrameReceive p f => Sys2Proof.Machine.execRingFrameReceive p f s
  | .ringResendTimeout p => Sys2Proof.Machine.execRingResendTimeout p s
  | .ackBlock p rx => Sys2Proof.Machine.execAckBlock p rx s
  | .receipt f => Sys2Proof.Machine.execReceipt f s
  | .ringLinkDown p => Sys2Proof.Machine.execRingLinkDown p s
  | .foldEdge p => Sys2Proof.Machine.execFoldEdge p s
  | .park p => Sys2Proof.Machine.execPark p s
  | .hello p id serial => Sys2Proof.Machine.execHello p id serial s
  | .join p f => Sys2Proof.Machine.execJoin p f s
  | .portTrain p => Sys2Proof.Machine.execPortTrain p s
  | .portPark p => Sys2Proof.Machine.execPortPark p s
  | .serveSend => Sys2Proof.Machine.execServeSend s
  | .serveReceive p id hops crc => Sys2Proof.Machine.execServeReceive p id hops crc s
  | .faultReportReceive report => Sys2Proof.Machine.execFaultReportReceive report s
  | .umpWindowClose origin code => Sys2Proof.Machine.execUmpWindowClose origin code s
  | .stripe j => Sys2Proof.Machine.execStripe j s
  | .rebuildRead j => Sys2Proof.Machine.execRebuildRead j s
  | .leakCommit j => Sys2Proof.Machine.execLeakCommit j s
  | .leakSend j => Sys2Proof.Machine.execLeakSend j s
  | .parity f => Sys2Proof.Machine.execParity f s
  | .ready f => Sys2Proof.Machine.execReady f s
  | .teamCopyFrame f => Sys2Proof.Machine.execTeamCopyFrame f s
  | .done f => Sys2Proof.Machine.execDone f s
  | .abort f => Sys2Proof.Machine.execAbort f s
  | .rebuild f => Sys2Proof.Machine.execRebuild f s
  | .leak f => Sys2Proof.Machine.execLeak f s
  | .clean f => Sys2Proof.Machine.execClean f s
  | .mapcopy f => Sys2Proof.Machine.execMapcopy f s
  | .teamRecordChange slot => Sys2Proof.Machine.execTeamRecordChange slot s
  | .teamRunStart => Sys2Proof.Machine.execTeamRunStart s
  | .teamRunStop => Sys2Proof.Machine.execTeamRunStop s
  | .teamSlotActivate slot => Sys2Proof.Machine.execTeamSlotActivate slot s
  | .idleTimerExpiry t => Sys2Proof.Machine.execIdleTimerExpiry t s
  | .dozeEntry => Sys2Proof.Machine.execDozeEntry s
  | .napEntry => Sys2Proof.Machine.execNapEntry s
  | .offEntry => Sys2Proof.Machine.execOffEntry s
  | .sleepRequest target => Sys2Proof.Machine.execSleepRequest target s
  | .sleepCancel => Sys2Proof.Machine.execSleepCancel s
  | .sleepRequestTimeout => Sys2Proof.Machine.execSleepRequestTimeout s
  | .wake sources => Sys2Proof.Machine.execWake sources s
  | .napExit savedOk imageOk => Sys2Proof.Machine.execNapExit savedOk imageOk s
  | .dozeExit => Sys2Proof.Machine.execDozeExit s
  | .qdrDrop => Sys2Proof.Machine.execQdrDrop s
  | .sample temp replies skipped => Sys2Proof.Machine.execSample temp replies skipped s
  | .aon1v8Overcurrent => Sys2Proof.Machine.execAon1v8Overcurrent s
  | .aonWindowWrite off val => Sys2Proof.Machine.execAonWindowWrite off val s
  | .bootStepTimeout n => Sys2Proof.Machine.execBootStepTimeout n s
  | .watchdogExpiry => Sys2Proof.Machine.execWatchdogExpiry s
  | .wdogKick => Sys2Proof.Machine.execWdogKick s
  | .stickyClear bits => Sys2Proof.Machine.execStickyClear bits s
  | .flashErase ok => Sys2Proof.Machine.execFlashErase ok s
  | .flashProgram ok => Sys2Proof.Machine.execFlashProgram ok s
  | .flashRead => Sys2Proof.Machine.execFlashRead s
  | .resetN => Sys2Proof.Machine.execResetN s
  | .vinPowerOn => Sys2Proof.Machine.execVinPowerOn s
  | .vinLoss => Sys2Proof.Machine.execVinLoss s
  | .vioLoss => Sys2Proof.Machine.execVioLoss s
  | .timingLock c adc => Sys2Proof.Machine.execTimingLock c adc s
  | .bootStepDone n r => Sys2Proof.Machine.execBootStepDone n r s
  | .perstNRising => Sys2Proof.Machine.execPerstNRising s
  | .vioGood => Sys2Proof.Machine.execVioGood s
  | .pcieLinkDown => Sys2Proof.Machine.execPcieLinkDown s

end Sys2Proof.Machine
end

