-- ==== Sys2Proof/Machine/Step.lean ====
section
/-!
DEFINITION. One step: the command at the front of the queue is taken and run. With no command waiting the block idles: one
millisecond passes on the AON timer, which the umpire's log and windows read (R401, R402), and nothing else changes but what
hangs on that millisecond (DESIGN CHOICE, log entry 3).
-/
namespace Sys2Proof.Machine

/-- Take the first waiting command and run it on the rest of the queue; with none waiting, a millisecond passes.
DESIGN CHOICE: log entry 3; DEDUCED: log entry 76. -/
def step (s : State) : Host.Outcome State Fault Refusal :=
  match s.pending with
  | [] => .next s.idleTick
  | c :: rest => exec c { s with pending := rest }

/-- The state with the command that a word spells put at the front of its queue. The table of the spec gives no command
any bits, so no word spells one.
DEDUCED: log entry 4. -/
def State.withFetchWord (s : State) (nbits w : Nat) : State :=
  match decodeTableWord nbits w with
  | some c => { s with pending := c :: s.pending }
  | none => s

end Sys2Proof.Machine
end

