-- ==== Sys2Proof/WellFormed.lean ====
section
/-!
DEFINITION. Which commands are well formed: operands that no Lean type bounds lie in the range that the spec gives what they
stand for. `exec` is total on ill-formed commands too; a sender has no cause to send one.
-/
namespace Sys2Proof

/-- BARs of a register access: BAR0, BAR4, and 6 for configuration space (R369). -/
def barOk (b : Nat) : Bool := b == 0 || b == 4 || b == 6

/-- LPOS values (R31). -/
def lposOk (l : Nat) : Bool := decide (l < 3380000)

/-- Yealm numbers: 28 bits (R41). -/
def yealmOk (y : Nat) : Bool := decide (y < 2 ^ 28)

/-- A rate and width that a link trains to (R368). -/
def linkOk (speed width : Nat) : Bool :=
  decide (1 ≤ speed) && decide (speed ≤ 5) && (width == 1 || width == 2 || width == 4 || width == 8)

/-- What host memory returns to one FETCH: at most 16 MiB (R382). -/
def hostReadOk (r : HostRead) : Bool :=
  match r with
  | .data l => decide ((l.flatMap (·.1)).length ≤ 16777216)
  | .error _ => true

/-- A ring frame as it arrives: a header of 24 bytes and at most 2,048 bytes of payload (R390). -/
def frameShape (f : RingFrame) : Bool := f.header.length == 24 && decide (f.payload.length ≤ 2048)

/-- A work item: 64 bytes (R377). -/
def workOk (w : WorkItem) : Bool := w.bytes.length == 64

/-- A place that the search of a cartridge names: one of the 368 wraps and an LPOS (R28, R31). -/
def placeOk (wrap lpos : Nat) : Bool := decide (wrap < 368) && lposOk lpos

/-- What a mount finds: channels, places and bits that a cartridge has, and yealm numbers of 28 bits (R31, R35, R37, R41). -/
def tapeOk (f : TapeFind) : Bool :=
  f.seals.all (fun c => decide (c.chan < 64) && placeOk c.wrap c.lpos && decide (c.bit < 14553)) &&
    f.gaps.all (fun g => decide (g.1 < 368)) && f.index.all (fun x => yealmOk x.yealm && placeOk x.wrap x.lpos)

/-- Whether a command is well formed. -/
def Instr.wf (i : Instr) : Bool :=
  match i with
  | .registerWrite _ bar _ len _ _ => barOk bar && decide (1 ≤ len) && decide (len ≤ 4)
  | .registerReadClear _ bar _ len _ => barOk bar && decide (1 ≤ len)
  | .aonXtalChangeover => true
  | .aonXtalLost => true
  | .yealmStart => true
  | .sealBegin => true
  | .uf1LocatorWrite => true
  | .resumeMarkSearch _ lpos _ => lposOk lpos
  | .zoneCapture _ => true
  | .battenGuard _ _ => true
  | .miniPreambleRestore _ _ => true
  | .timingLockLoss _ _ => true
  | .longDefectEnd _ _ => true
  | .courseFrame _ _ => true
  | .c1Decode _ _ => true
  | .yealmDecode y => yealmOk y
  | .c2Retry y => yealmOk y
  | .channelEnable _ => true
  | .channelDisable _ => true
  | .handoff => true
  | .handoffChannelSwitch _ lpos => lposOk lpos
  | .calGo _ => true
  | .calibrationDone _ _ => true
  | .sidebandDirection => true
  | .gateOn _ _ => true
  | .gateOff _ => true
  | .wrapEndBlock => true
  | .sbGo => true
  | .sidebandReply _ _ => true
  | .sidebandStatusRead _ _ => true
  | .courseVerify _ _ => true
  | .sealVerify => true
  | .shockInput _ => true
  | .inhSw _ => true
  | .inhClr => true
  | .inhibitTimeout => true
  | .wrcRunStop => true
  | .battenDecode _ => true
  | .headPositionSample _ => true
  | .motTick _ => true
  | .motOverrun => true
  | .motDiFrame _ _ => true
  | .motRunStart => true
  | .motRunStop => true
  | .loopClose _ => true
  | .loopOpen _ => true
  | .motWrap _ => true
  | .accRead _ => true
  | .paceUpdate => true
  | .backhitchDecelerate => true
  | .backhitchResume => true
  | .turnaround => true
  | .compress _ _ => true
  | .decompress _ => true
  | .ctxInit _ => true
  | .ctxSave _ => true
  | .cmpRunStart => true
  | .cmpRunStop => true
  | .scrubVisit => true
  | .poolRunStart => true
  | .poolRunStop => true
  | .queueEnable _ => true
  | .queueDisable _ => true
  | .add _ _ _ _ => true
  | .sub _ _ _ _ => true
  | .and _ _ _ _ => true
  | .or _ _ _ _ => true
  | .xor _ _ _ _ => true
  | .shl _ _ _ _ => true
  | .shr _ _ _ _ => true
  | .sar _ _ _ _ => true
  | .ror _ _ _ _ => true
  | .mul _ _ _ _ => true
  | .mulhu _ _ _ _ => true
  | .cmp _ _ _ _ => true
  | .slt _ _ _ _ => true
  | .sltu _ _ _ _ => true
  | .min _ _ _ _ => true
  | .max _ _ _ _ => true
  | .minu _ _ _ _ => true
  | .maxu _ _ _ _ => true
  | .clz _ _ _ _ => true
  | .popc _ _ _ _ => true
  | .bswap _ _ _ _ => true
  | .sel _ _ _ _ => true
  | .addi _ _ _ _ _ => true
  | .andi _ _ _ _ _ => true
  | .ori _ _ _ _ _ => true
  | .xori _ _ _ _ _ => true
  | .shli _ _ _ _ => true
  | .shri _ _ _ _ => true
  | .sari _ _ _ _ => true
  | .rori _ _ _ _ => true
  | .movi _ _ _ _ => true
  | .movs _ _ _ _ => true
  | .cmpi _ _ _ _ _ => true
  | .ldl _ _ _ _ _ => true
  | .stl _ _ _ _ _ => true
  | .ldt _ _ _ _ _ => true
  | .tileLoadReturn _ => true
  | .stt _ _ _ _ _ => true
  | .crc32c _ _ _ _ _ => true
  | .wmov _ _ _ _ => true
  | .wxor _ _ _ _ => true
  | .wand _ _ _ _ => true
  | .wor _ _ _ _ => true
  | .wfrom _ _ _ _ => true
  | .wlo _ _ _ _ => true
  | .whi _ _ _ _ => true
  | .clmulLl _ _ _ _ => true
  | .clmulHl _ _ _ _ => true
  | .clmulLh _ _ _ _ => true
  | .clmulHh _ _ _ _ => true
  | .ghred _ _ _ _ => true
  | .xtsmul _ _ _ _ => true
  | .inc32 _ _ _ _ => true
  | .brevb _ _ _ _ => true
  | .tageq _ _ _ _ => true
  | .bswapw _ _ _ _ => true
  | .br _ _ _ _ => true
  | .bz _ _ _ _ => true
  | .bnz _ _ _ _ => true
  | .bc _ _ _ _ => true
  | .loop _ _ _ _ => true
  | .jr _ _ _ _ => true
  | .qput _ _ _ _ => true
  | .qget _ _ _ _ => true
  | .qcnt _ _ _ _ => true
  | .balloc _ _ _ _ => true
  | .bfree _ _ _ _ => true
  | .issue _ _ _ _ _ _ => true
  | .issueAccept _ => true
  | .wait _ _ _ _ => true
  | .waitReturn _ _ => true
  | .timerEvent _ => true
  | .pwrhint _ _ _ _ _ => true
  | .txb _ _ _ _ => true
  | .txc _ _ _ _ => true
  | .txCommit _ => true
  | .txCapacityTimeout _ => true
  | .txa _ _ _ _ => true
  | .tset _ _ _ _ => true
  | .nop _ _ _ _ => true
  | .halt _ _ _ _ => true
  | .mfs _ _ _ _ => true
  | .mts _ _ _ _ => true
  | .sig _ _ _ _ => true
  | .trap _ _ _ _ => true
  | .eret _ _ _ _ => true
  | .pchk _ _ _ _ => true
  | .pchkw _ _ _ _ => true
  | .coreStart _ => true
  | .coreStopRequest _ => true
  | .coreGraceExpiry _ => true
  | .coreForceStop _ => true
  | .coreSignalWrite _ => true
  | .programLoad => true
  | .programLoadDone => true
  | .ldmWindowWrite off _ => off.toNat % 4 == 0
  | .completionPut _ => true
  | .encode _ => true
  | .write _ => true
  | .seal _ => true
  | .read _ => true
  | .fetch _ r => hostReadOk r
  | .deliver _ => true
  | .complete _ => true
  | .msixMessage _ _ => true
  | .send _ _ => true
  | .sendReceiptTimeout _ => true
  | .postRx _ _ => true
  | .keyImport _ => true
  | .erase _ => true
  | .attest _ => true
  | .copy _ => true
  | .fill _ => true
  | .check _ => true
  | .encrypt _ => true
  | .decrypt _ => true
  | .cipLockTake => true
  | .cipLockIdle => true
  | .cipLockFree => true
  | .cipRunStop => true
  | .keyAlarm _ => true
  | .secure _ => true
  | .alarmEnableWrite _ _ => true
  | .sqDoorbell _ _ _ => true
  | .cqDoorbell _ _ _ => true
  | .workBatchFetch _ _ items => decide (items.length ≤ 64) && items.all fun b => b.length == 64
  | .queuePairEnable _ _ => true
  | .functionLevelReset _ => true
  | .perstN => true
  | .hstRunStop => true
  | .bar2Access _ len wr => decide (1 ≤ len) && wr.all fun b => b.length == len
  | .pcieLinkUp speed width => linkOk speed width
  | .identify w => workOk w
  | .openStream w => workOk w
  | .closeStream w => workOk w
  | .commit w _ => workOk w
  | .mount w f => workOk w && tapeOk f
  | .unload w => workOk w
  | .locate w => workOk w
  | .writeRecord w => workOk w
  | .importKey w => workOk w
  | .readRecord w => workOk w
  | .readLog w => workOk w
  | .ringFrameReceive _ f => frameShape f
  | .ringResendTimeout _ => true
  | .ackBlock _ _ => true
  | .receipt f => frameShape f
  | .ringLinkDown _ => true
  | .foldEdge _ => true
  | .park _ => true
  | .hello _ _ _ => true
  | .join _ f => frameShape f
  | .portTrain _ => true
  | .portPark _ => true
  | .serveSend => true
  | .serveReceive _ _ _ _ => true
  | .faultReportReceive report => report.length == 32
  | .umpWindowClose _ _ => true
  | .stripe _ => true
  | .rebuildRead _ => true
  | .leakCommit _ => true
  | .leakSend _ => true
  | .parity f => frameShape f
  | .ready f => frameShape f
  | .teamCopyFrame f => frameShape f
  | .done f => frameShape f
  | .abort f => frameShape f
  | .rebuild f => frameShape f
  | .leak f => frameShape f
  | .clean f => frameShape f
  | .mapcopy f => frameShape f
  | .teamRecordChange _ => true
  | .teamRunStart => true
  | .teamRunStop => true
  | .teamSlotActivate _ => true
  | .idleTimerExpiry _ => true
  | .dozeEntry => true
  | .napEntry => true
  | .offEntry => true
  | .sleepRequest _ => true
  | .sleepCancel => true
  | .sleepRequestTimeout => true
  | .wake _ => true
  | .napExit _ _ => true
  | .dozeExit => true
  | .qdrDrop => true
  | .sample _ _ _ => true
  | .aon1v8Overcurrent => true
  | .aonWindowWrite off _ => off.toNat % 4 == 0
  | .bootStepTimeout _ => true
  | .watchdogExpiry => true
  | .wdogKick => true
  | .stickyClear _ => true
  | .flashErase _ => true
  | .flashProgram _ => true
  | .flashRead => true
  | .resetN => true
  | .vinPowerOn => true
  | .vinLoss => true
  | .vioLoss => true
  | .timingLock _ _ => true
  | .bootStepDone _ r => ((r.speed == 0 && r.width == 0) || linkOk r.speed r.width) && tapeOk r.mount
  | .perstNRising => true
  | .vioGood => true
  | .pcieLinkDown => true

end Sys2Proof
end

