-- ==== Sys2Proof/Safety.lean ====
section
/-!
DEFINITION. What counts as a good state and a good run, in the terms the statements use. No command of the spec stops the
block: a run is good when every step answers a next state, and a state is good when its memories are in their one canonical
form.
-/
namespace Sys2Proof.Machine

/-- The canonical form of the register file: offsets strictly rising, no word listed that equals its reset value. -/
def regsWf (m : SMap W32) : Bool := SMap.wf resetOf m

/-- The sparse parts of the state in canonical form, so that equal contents are equal data: the register file, the cores, the
engines' queues, the transactional registers, tile memory with its parity marks and tile records, the buffers and free lists,
the queues and their items, the lanes, the key slots, the read channels and AON memory. -/
def State.canonical (s : State) : Bool :=
  regsWf s.regs && SMap.wf (fun _ => ({} : Core)) s.cores && SMap.wf (fun _ => ([] : List Cmd)) s.accepted &&
    SMap.wf (fun _ => (0 : W64)) s.txr && Memory.wf s.mem && SMap.wf (fun _ => false) s.located &&
    SMap.wf (fun _ => ({} : TileRec)) s.tiles && SMap.wf (fun _ => ({} : Buf)) s.bufs &&
    SMap.wf (fun _ => ([] : List Nat)) s.free && SMap.wf (fun _ => ({} : Queue)) s.queues &&
    SMap.wf (fun _ => (0 : W128)) s.items && SMap.wf (fun _ => ({} : Lane)) s.lanes &&
    SMap.wf (fun _ => (none : Option Nat)) s.slotLane && SMap.wf (fun _ => ({} : KeySlot)) s.keys &&
    SMap.wf (fun _ => ({} : RChan)) s.rchans && SMap.wf (fun _ => (0 : Byte)) s.aon

/-- A command keeps to instruction memory: where it is an instruction of a core, the core meets it at its pc (R277, R283). -/
def State.meets (s : State) (i : Instr) : Prop := ∀ n w, larufEncode i = some (n, w) → s.larufAt n = some i

/-- Whether an outcome is a next state. -/
def goesOn (r : Res) : Bool :=
  match r with
  | .next _ => true
  | _ => false

/-- A run of `n` steps in which every step answers a next state. -/
def safeRun (n : Nat) (s : State) : Prop := ∃ t, Host.Core.run Sys2Proof.core n s = .next t

end Sys2Proof.Machine
end

