-- ==== Sys2Proof/Certificates/Slice0/Obligations.lean ====
section
/-!
DEFINITION. The statements about the model, for the provers: each a Prop that follows rules of the spec.
-/
/-! ## What the statements are written with -/

namespace Sys2Proof.Claims
open Sys2Proof.Machine

/-- Core `n` executes: CPLL runs, the core runs and waits for nothing, its pc lies in its code, and the word there has a defined opcode
and function. -/
def Runs (s : State) (n : CoreId) : Prop :=
  s.canonical = true ∧ s.clocked = true ∧ (s.core n).run = .running ∧ (s.core n).stall = .none ∧
    (s.core n).pc < (s.core n).codeLen ∧ (s.larufAt n).isSome = true

/-- The outcome of an instruction that leaves core `n` as `c`, at its next pc, and nothing else changed. -/
def done (s : State) (n : CoreId) (c : Core) : Res := .next (s.setCore n c.advance)

/-- Only the registers at the listed offsets of the register file differ. -/
def OnlyRegs (l : List Nat) (s t : State) : Prop :=
  t = { s with regs := t.regs } ∧ ∀ a, a ∉ l → t.reg a = s.reg a

/-- Only core `n` and the registers at the listed offsets differ. -/
def OnlyCore (n : CoreId) (l : List Nat) (s t : State) : Prop :=
  t = { s with regs := t.regs, cores := t.cores } ∧ (∀ a, a ∉ l → t.reg a = s.reg a) ∧
    ∀ k, k ≠ n.val → t.core k = s.core k

/-! ### Laruf -/

/-- Two-operand ALU functions (R285). -/
def aluRows : List ((CoreId → Rf → Rf → Rf → Instr) × (W64 → W64 → W64)) :=
  [(Instr.add, fun a b => BitVec.ofNat 64 (a.toNat + b.toNat)),
   (Instr.sub, fun a b => BitVec.ofInt 64 (a.toNat - b.toNat)),
   (Instr.and, fun a b => a &&& b),
   (Instr.or, fun a b => a ||| b),
   (Instr.xor, fun a b => a ^^^ b),
   (Instr.shl, fun a b => BitVec.ofNat 64 (a.toNat * 2 ^ (b.toNat % 64))),
   (Instr.shr, fun a b => BitVec.ofNat 64 (a.toNat / 2 ^ (b.toNat % 64))),
   (Instr.sar, fun a b => BitVec.ofInt 64 (a.toInt / 2 ^ (b.toNat % 64))),
   (Instr.ror, fun a b => BitVec.ofNat 64 (a.toNat / 2 ^ (b.toNat % 64) + a.toNat * 2 ^ (64 - b.toNat % 64))),
   (Instr.mul, fun a b => BitVec.ofNat 64 (a.toNat * b.toNat)),
   (Instr.mulhu, fun a b => BitVec.ofNat 64 (a.toNat * b.toNat / 2 ^ 64)),
   (Instr.slt, fun a b => if a.toInt < b.toInt then 1 else 0),
   (Instr.sltu, fun a b => if a.toNat < b.toNat then 1 else 0),
   (Instr.min, fun a b => BitVec.ofInt 64 (Min.min a.toInt b.toInt)),
   (Instr.max, fun a b => BitVec.ofInt 64 (Max.max a.toInt b.toInt)),
   (Instr.minu, fun a b => BitVec.ofNat 64 (Min.min a.toNat b.toNat)),
   (Instr.maxu, fun a b => BitVec.ofNat 64 (Max.max a.toNat b.toNat))]

/-- Immediate functions with the sub field zero (R284). -/
def immRows : List ((CoreId → Rf → Rf → BitVec 2 → BitVec 14 → Instr) × (W64 → BitVec 14 → W64)) :=
  [(Instr.addi, fun a i => BitVec.ofInt 64 (a.toNat + i.toInt)),
   (Instr.andi, fun a i => a &&& BitVec.ofNat 64 i.toNat),
   (Instr.ori, fun a i => a ||| BitVec.ofNat 64 i.toNat),
   (Instr.xori, fun a i => a ^^^ BitVec.ofNat 64 i.toNat)]

/-- Shifts by an immediate amount (R284). -/
def shiftRows : List ((CoreId → Rf → Rf → BitVec 14 → Instr) × (W64 → Nat → W64)) :=
  [(Instr.shli, fun a k => BitVec.ofNat 64 (a.toNat * 2 ^ k)),
   (Instr.shri, fun a k => BitVec.ofNat 64 (a.toNat / 2 ^ k)),
   (Instr.sari, fun a k => BitVec.ofInt 64 (a.toInt / 2 ^ k)),
   (Instr.rori, fun a k => BitVec.ofNat 64 (a.toNat / 2 ^ k + a.toNat * 2 ^ (64 - k)))]

/-- Coefficient `i` of the carry-less product of two 64-bit polynomials. -/
def clmulBit (a b : W64) (i : Nat) : Bool :=
  (List.range (i + 1)).foldl (fun x j => x ^^ (a.getLsbD j && b.getLsbD (i - j))) false

/-- The carry-less product of two 64-bit polynomials (R294). -/
def clmulSpec (a b : W64) : W128 :=
  (List.range 127).foldl (fun v i => if clmulBit a b i then v + BitVec.ofNat 128 (2 ^ i) else v) 0

/-- Instructions of two wide operands (R294). -/
def wideRows : List ((CoreId → Rf → Rf → Rf → Instr) × (W128 → W128 → W128)) :=
  [(Instr.wxor, fun a b => a ^^^ b),
   (Instr.wand, fun a b => a &&& b),
   (Instr.wor, fun a b => a ||| b),
   (Instr.clmulLl, fun a b => clmulSpec (a.extractLsb' 0 64) (b.extractLsb' 0 64)),
   (Instr.clmulHl, fun a b => clmulSpec (a.extractLsb' 64 64) (b.extractLsb' 0 64)),
   (Instr.clmulLh, fun a b => clmulSpec (a.extractLsb' 0 64) (b.extractLsb' 64 64)),
   (Instr.clmulHh, fun a b => clmulSpec (a.extractLsb' 64 64) (b.extractLsb' 64 64))]

/-- `x ^ k` modulo G = x^128 + x^7 + x^2 + x + 1 (R295). -/
def powX : Nat → W128
  | 0 => 1
  | k + 1 => BitVec.ofNat 128 (2 * (powX k).toNat) ^^^ (if (powX k).getLsbD 127 then 0x87 else 0)

/-- (a · x^128 + b) mod G, term by term (R295). -/
def ghashReduce (a b : W128) : W128 :=
  (List.range 128).foldl (fun v i => if a.getLsbD i then v ^^^ powX (128 + i) else v) b

/-- Whether the condition of a BC code holds (R291). -/
def condition (code : Nat) (z n c v q : Bool) : Bool :=
  match code with
  | 0 => z
  | 1 => !z
  | 2 => n != v
  | 3 => n == v
  | 4 => !c
  | 5 => c
  | 6 => !z && (n == v)
  | 7 => z || (n != v)
  | 8 => c && !z
  | 9 => !c || z
  | 10 => q
  | _ => !q

end Sys2Proof.Claims

open Sys2Proof Sys2Proof.Machine Sys2Proof.Claims

/-! ## Stream cores -/

/-- R285, R281: every two-operand ALU instruction of a running core writes its result, marked when an operand is, and changes
nothing else but the pc (and the loop stack at the end of a body). -/
def Sys2Proof.Claims.AluBinary : Prop :=
  ∀ row ∈ aluRows, ∀ (n : CoreId) (rd ra rb : Rf) (s : State), Runs s n →
    exec (row.1 n rd ra rb) s =
      done s n ((s.core n).setG rd (row.2 ((s.core n).gv ra) ((s.core n).gv rb)) ((s.core n).gm ra || (s.core n).gm rb))

/-- R285, R283: CLZ, POPC and BSWAP with rb zero, and ILLEGAL with another; SEL by Z, marked also by FM. -/
def Sys2Proof.Claims.AluUnary : Prop :=
  ∀ (n : CoreId) (rd ra rb : Rf) (s : State), Runs s n →
    let c := s.core n
    let a := c.gv ra
    (∃ k, exec (.clz n rd ra 0) s = done s n (c.setG rd (BitVec.ofNat 64 k) (c.gm ra)) ∧ k ≤ 64 ∧
      (∀ i, 64 - k ≤ i → a.getLsbD i = false) ∧ (k < 64 → a.getLsbD (63 - k) = true)) ∧
    exec (.popc n rd ra 0) s =
      done s n (c.setG rd (BitVec.ofNat 64 ((List.range 64).countP fun i => a.getLsbD i)) (c.gm ra)) ∧
    (∃ v : W64, exec (.bswap n rd ra 0) s = done s n (c.setG rd v (c.gm ra)) ∧
      ∀ i, i < 8 → v.extractLsb' (8 * i) 8 = a.extractLsb' (8 * (7 - i)) 8) ∧
    exec (.sel n rd ra rb) s =
      done s n (c.setG rd (if c.fz then a else c.gv rb) (c.gm ra || c.gm rb || c.fm)) ∧
    (rb ≠ 0 → ∀ i ∈ [Instr.clz n rd ra rb, Instr.popc n rd ra rb, Instr.bswap n rd ra rb],
      exec i s = .next (s.exception n 0x01 none 0))

/-- R281, R283, R285: what the ALU instructions write.
The model's own readings in it: log entry 30 (DESIGN CHOICE). -/
def Obligations.AluInstructions : Prop := AluBinary ∧ AluUnary

/-- R284, R281: the immediate instructions, with the fields they do not use zero; MOVI and MOVS.
The model's own readings in it: log entry 30 (DESIGN CHOICE). -/
def Obligations.ImmediateResults : Prop :=
  ∀ (n : CoreId) (rd ra : Rf) (imm : BitVec 14) (s : State), Runs s n →
    let c := s.core n
    (∀ row ∈ immRows, exec (row.1 n rd ra 0 imm) s = done s n (c.setG rd (row.2 (c.gv ra) imm) (c.gm ra))) ∧
    (∀ row ∈ shiftRows, imm.toNat < 64 →
      exec (row.1 n rd ra imm) s = done s n (c.setG rd (row.2 (c.gv ra) imm.toNat) (c.gm ra))) ∧
    (∀ row ∈ shiftRows, 64 ≤ imm.toNat → exec (row.1 n rd ra imm) s = .next (s.exception n 0x01 none 0)) ∧
    exec (.movi n rd 0 imm) s = done s n (c.setG rd (BitVec.ofInt 64 imm.toInt) false) ∧
    exec (.movs n rd ra imm) s =
      done s n (c.setG rd (BitVec.ofNat 64 ((c.gv ra).toNat * 2 ^ 14) ||| BitVec.ofNat 64 imm.toNat) (c.gm ra))

/-- R280, R281, R285: CMP and CMPI set Z, N, C and V as the flags table says and FM from the marks read, and nothing else. -/
def Obligations.CompareFlags : Prop :=
  ∀ (n : CoreId) (ra rb : Rf) (imm : BitVec 14) (s : State), Runs s n →
    let c := s.core n
    let flags (a b : W64) (m : Bool) : Core :=
      { c with
        fz := decide (a = b)
        fn := (a - b).getLsbD 63
        fc := decide (b.toNat ≤ a.toNat)
        fv := decide (a.toInt - b.toInt < -2 ^ 63 ∨ 2 ^ 63 ≤ a.toInt - b.toInt)
        fm := m }
    exec (.cmp n 0 ra rb) s = done s n (flags (c.gv ra) (c.gv rb) (c.gm ra || c.gm rb)) ∧
    exec (.cmpi n 0 ra 0 imm) s = done s n (flags (c.gv ra) (BitVec.ofInt 64 imm.toInt) (c.gm ra))

/-- R294, R281: the wide instructions of two operands, with register fields up to 15. -/
def Sys2Proof.Claims.WideTwo : Prop :=
  ∀ row ∈ wideRows, ∀ (n : CoreId) (rd ra rb : Rf) (s : State), Runs s n → rd.toNat < 16 → ra.toNat < 16 → rb.toNat < 16 →
    exec (row.1 n rd ra rb) s =
      done s n ((s.core n).setW rd (row.2 ((s.core n).wv ra) ((s.core n).wv rb)) ((s.core n).wm ra || (s.core n).wm rb))

/-- R293 to R295: CRC32C, the wide moves and the AES assist, each with its result and mark. -/
def Sys2Proof.Claims.AssistForms : Prop :=
  ∀ (n : CoreId) (rd ra rb : Rf) (w : BitVec 2) (s : State), Runs s n →
    let c := s.core n
    exec (.crc32c n rd ra rb w) s =
      done s n (c.setG rd (BitVec.ofNat 64 (crc32cAdv ((c.gv ra).toNat % 2 ^ 32) (leBytes (2 ^ w.toNat) (c.gv rb).toNat)))
        (c.gm ra || c.gm rb)) ∧
    (rd.toNat < 16 → exec (.wfrom n rd ra rb) s =
      done s n (c.setW rd (BitVec.ofNat 128 ((c.gv ra).toNat + 2 ^ 64 * (c.gv rb).toNat)) (c.gm ra || c.gm rb))) ∧
    (ra.toNat < 16 →
      exec (.wlo n rd ra 0) s = done s n (c.setG rd ((c.wv ra).extractLsb' 0 64) (c.wm ra)) ∧
      exec (.whi n rd ra 0) s = done s n (c.setG rd ((c.wv ra).extractLsb' 64 64) (c.wm ra)) ∧
      (rb.toNat < 16 → exec (.tageq n rd ra rb) s =
        done s n { (c.setG rd (if c.wv ra = c.wv rb then 1 else 0) (c.wm ra || c.wm rb)) with
          fz := decide (c.wv ra = c.wv rb), fn := false, fc := false, fv := false, fm := c.wm ra || c.wm rb })) ∧
    (rd.toNat < 16 → ra.toNat < 16 →
      exec (.wmov n rd ra 0) s = done s n (c.setW rd (c.wv ra) (c.wm ra)) ∧
      (∃ v : W128, exec (.bswapw n rd ra 0) s = done s n (c.setW rd v (c.wm ra)) ∧
        ∀ i, i < 16 → v.extractLsb' (8 * i) 8 = (c.wv ra).extractLsb' (8 * (15 - i)) 8) ∧
      (∃ v : W128, exec (.brevb n rd ra 0) s = done s n (c.setW rd v (c.wm ra)) ∧
        ∀ i k, i < 16 → k < 8 → v.getLsbD (8 * i + k) = (c.wv ra).getLsbD (8 * i + 7 - k)) ∧
      (∃ v : W128, exec (.inc32 n rd ra 0) s = done s n (c.setW rd v (c.wm ra)) ∧
        v.extractLsb' 0 96 = (c.wv ra).extractLsb' 0 96 ∧
        leNat (leBytes 4 (v.extractLsb' 96 32).toNat).reverse =
          (leNat (leBytes 4 ((c.wv ra).extractLsb' 96 32).toNat).reverse + 1) % 2 ^ 32) ∧
      exec (.xtsmul n rd ra 0) s =
        done s n (c.setW rd (BitVec.ofNat 128 (2 * (c.wv ra).toNat) ^^^ (if (c.wv ra).getLsbD 127 then 0x87 else 0)) (c.wm ra)) ∧
      (rb.toNat < 16 → exec (.ghred n rd ra rb) s =
        done s n (c.setW rd (ghashReduce (c.wv ra) (c.wv rb)) (c.wm ra || c.wm rb))))

/-- R293 to R295, R281: the wide instructions of two operands, CRC32C, the wide moves and the AES assist, each with its result
and mark. -/
def Obligations.WideAndAssistResults : Prop := WideTwo ∧ AssistForms

/-- R283 to R285, R293 to R303, R306: every instruction of a stream core and its word. Decoding an encoded instruction gives it back
with every field, and a word that decodes is its instruction's word; the opcodes that the table lacks decode to nothing; and a
core meets at its pc the instruction whose word its instruction memory holds there, least significant byte first. -/
def Obligations.LarufWordsRoundTrip : Prop :=
  (∀ (i : Instr) (n : CoreId) (w : W32), larufEncode i = some (n, w) ↔ larufDecode n w = some i) ∧
  (∀ (n : CoreId) (w : W32), (w.extractLsb' 26 6).toNat ∈ [0x0F, 0x16, 0x17, 0x1D] ∨ 0x20 ≤ (w.extractLsb' 26 6).toNat →
    larufDecode n w = none) ∧
  (∀ (i : Instr) (n : CoreId) (w : W32) (s : State), larufEncode i = some (n, w) →
    (∀ k, k < 4 → (s.core n).im.get (fun _ => 0) ((s.core n).pc + k) = w.extractLsb' (8 * k) 8) →
    s.larufAt n = some i ∧ s.meets i)

/-- R284, R291, R292: branches; a taken one goes to the address of the branch plus 4 times off20, an untaken one goes on. -/
def Sys2Proof.Claims.BranchForms : Prop :=
  ∀ (n : CoreId) (ra rd : Rf) (off : BitVec 20) (s : State), Runs s n →
    let c := s.core n
    let dest := ((c.pc + 4 * off.toInt) % 2 ^ 64).toNat
    exec (.br n ra true off) s = .next (s.setCore n ((c.setG ra (BitVec.ofNat 64 (c.pc + 4)) false).jump dest)) ∧
    exec (.br n 0 false off) s = .next (s.setCore n (c.jump dest)) ∧
    (c.gm ra = false →
      exec (.bz n ra false off) s = (if c.gv ra = 0 then .next (s.setCore n (c.jump dest)) else done s n c) ∧
      exec (.bnz n ra false off) s = (if c.gv ra = 0 then done s n c else .next (s.setCore n (c.jump dest))) ∧
      ((c.gv ra).toNat % 4 = 0 → exec (.jr n rd ra 0) s =
        .next (s.setCore n ((c.setG rd (BitVec.ofNat 64 (c.pc + 4)) false).jump (c.gv ra).toNat))) ∧
      ((c.gv ra).toNat % 4 ≠ 0 → exec (.jr n rd ra 0) s = .next (s.exception n 0x02 (some (c.gv ra)) 0))) ∧
    (c.gm ra = true → ∀ i ∈ [Instr.bz n ra false off, Instr.bnz n ra false off, Instr.jr n rd ra 0],
      exec i s = .next (s.exception n 0x05 none 0))

/-- R291: BC takes its condition from the table; codes 12 to 31 are ILLEGAL, and codes 10 and 11 raise no POISON on FM. -/
def Obligations.BranchConditions : Prop :=
  ∀ (n : CoreId) (code : Rf) (off : BitVec 20) (s : State), Runs s n →
    let c := s.core n
    let dest := ((c.pc + 4 * off.toInt) % 2 ^ 64).toNat
    (code.toNat < 12 → (code.toNat < 10 → c.fm = false) → exec (.bc n code false off) s =
      (if condition code.toNat c.fz c.fn c.fc c.fv c.fq then .next (s.setCore n (c.jump dest)) else done s n c)) ∧
    (code.toNat < 10 → c.fm = true → exec (.bc n code false off) s = .next (s.exception n 0x05 none 0)) ∧
    (12 ≤ code.toNat → exec (.bc n code false off) s = .next (s.exception n 0x01 none 0))

/-- R292: LOOP with an unmarked count and a target after it: over the body for a count of 0 or an empty body, else one more entry,
and LOOP_DEPTH for a fifth; then what the end of an instruction does with the innermost entry. -/
def Sys2Proof.Claims.LoopForms : Prop :=
  (∀ (n : CoreId) (ra : Rf) (off : BitVec 20) (s : State), Runs s n → (s.core n).gm ra = false → 0 < off.toInt →
    (s.core n).pc < 2 ^ 32 →
    let c := s.core n
    let dest := c.pc + 4 * off.toNat
    let k := (c.gv ra).toNat % 2 ^ 32
    (k = 0 ∨ off.toNat = 1 → exec (.loop n ra false off) s = .next (s.setCore n (c.jump dest))) ∧
    (k ≠ 0 → off.toNat ≠ 1 → c.loops.length < 4 → exec (.loop n ra false off) s =
      done s n { c with loops := { start := c.pc + 4, stop := dest, count := k } :: c.loops }) ∧
    (k ≠ 0 → off.toNat ≠ 1 → 4 ≤ c.loops.length →
      exec (.loop n ra false off) s = .next (s.exception n 0x07 none 0))) ∧
  (∀ (c : Core) (e : LoopEntry) (es : List LoopEntry), c.loops = e :: es →
    (c.pc + 4 ≠ e.stop → c.advance = { c with pc := c.pc + 4 }) ∧
    (c.pc + 4 = e.stop → 1 < e.count → c.advance = { c with pc := e.start, loops := { e with count := e.count - 1 } :: es }) ∧
    (c.pc + 4 = e.stop → e.count = 1 → c.advance = { c with loops := es }.advance) ∧
    (∀ d, e.start ≤ d → d < e.stop → c.jump d = { c with pc := d }) ∧
    (∀ d, ¬(e.start ≤ d ∧ d < e.stop) → c.jump d = { c with loops := es }.jump d)) ∧
  (∀ c : Core, c.loops = [] → c.advance = { c with pc := c.pc + 4 } ∧ ∀ d, c.jump d = { c with pc := d })

/-- R290 to R293: the branches and the loop stack.
The model's own readings in it: log entry 32 (DEDUCED). -/
def Obligations.BranchesAndLoops : Prop := BranchForms ∧ LoopForms

/-- R309: what an exception does. Its code, pc and status are recorded, the transaction and the loop stack end, and the core
continues at its image's handler with H set, or enters faulted.
The model's own readings in it: log entry 20 (DESIGN CHOICE). -/
def Obligations.ExceptionEntry : Prop :=
  ∀ (n : CoreId) (code : Nat) (a : W64) (st : W16) (s : State), s.canonical = true → (s.core n).run = .running →
    let c := s.core n
    let d := (s.exception n code (some a) st).core n
    d.fcode = code ∧ d.fpc = c.pc ∧ d.faddr = a ∧ d.fstat = st ∧ d.loops = [] ∧ d.depth = 0 ∧
      (c.depth ≠ 0 → d.staged = [] ∧ d.aborted = true ∧ d.cause = 3) ∧ d.g = c.g ∧ d.w = c.w ∧
      (∀ h, c.handler = some h → c.fh = false → d.run = .running ∧ d.pc = h ∧ d.fh = true) ∧
      (c.handler = none ∨ c.fh = true → d.run = .faulted ∧ d.pc = c.pc)

/-- R283, R284, R308, R277: nonzero unused fields, wide register fields above 15 and a branch's unused x raise ILLEGAL, and so does a
word at the pc with an undefined opcode or function; a pc at or beyond the code length raises LOCAL_RANGE; a core that does not run,
or whose clock is stopped (R15), executes nothing.
The model's own readings in it: log entry 29 (DEDUCED). -/
def Obligations.IllegalForms : Prop :=
  ∀ (n : CoreId) (rd ra rb : Rf) (sub : BitVec 2) (imm : BitVec 14) (off : BitVec 20) (s : State),
    (Runs s n →
      (rd ≠ 0 → ∀ i ∈ [Instr.cmp n rd ra rb, Instr.cmpi n rd ra 0 imm, Instr.sig n rd ra 0, Instr.tset n rd ra rb,
        Instr.nop n rd ra rb, Instr.halt n rd ra rb, Instr.trap n rd ra rb, Instr.eret n rd ra 0, Instr.txb n rd 0 0,
        Instr.txa n rd 0 0, Instr.pwrhint n rd 0 0 imm, Instr.qput n rd ra rb], exec i s = .next (s.exception n 0x01 none 0)) ∧
      (rb ≠ 0 → ∀ i ∈ [Instr.jr n rd ra rb, Instr.wait n rd ra rb, Instr.pchk n rd ra rb, Instr.balloc n rd ra rb,
        Instr.bfree n rd ra rb, Instr.qcnt n rd ra rb, Instr.wlo n rd ra rb, Instr.whi n rd ra rb, Instr.wmov n rd ra rb,
        Instr.mfs n rd ra rb, Instr.mts n rd ra rb, Instr.txc n rd 0 rb], exec i s = .next (s.exception n 0x01 none 0)) ∧
      (sub ≠ 0 → ∀ i ∈ [Instr.addi n rd ra sub imm, Instr.andi n rd ra sub imm, Instr.ori n rd ra sub imm,
        Instr.xori n rd ra sub imm, Instr.cmpi n 0 ra sub imm], exec i s = .next (s.exception n 0x01 none 0)) ∧
      (15 < rd.toNat → ∀ i ∈ [Instr.wxor n rd ra rb, Instr.wmov n rd ra 0, Instr.wfrom n rd ra rb, Instr.ghred n rd ra rb,
        Instr.clmulLl n rd ra rb, Instr.qget n rd ra 0], exec i s = .next (s.exception n 0x01 none 0)) ∧
      (∀ i ∈ [Instr.bz n ra true off, Instr.bnz n ra true off, Instr.bc n ra true off, Instr.loop n ra true off],
        exec i s = .next (s.exception n 0x01 none 0)) ∧
      (ra ≠ 0 → exec (.br n ra false off) s = .next (s.exception n 0x01 none 0) ∧
        exec (.movi n rd ra imm) s = .next (s.exception n 0x01 none 0))) ∧
    (s.clocked = true → (s.core n).run = .running → (s.core n).stall = .none → (s.core n).codeLen ≤ (s.core n).pc →
      exec (.add n rd ra rb) s = .next (s.exception n 0x03 (some (BitVec.ofNat 64 (s.core n).pc)) 0)) ∧
    (s.clocked = true → (s.core n).run = .running → (s.core n).stall = .none → (s.core n).pc < (s.core n).codeLen →
      s.larufAt n = none → exec (.add n rd ra rb) s = .next (s.exception n 0x01 none 0)) ∧
    ((s.core n).run ≠ .running ∨ s.clocked = false → exec (.add n rd ra rb) s = .next s)

/-- R286, R287, R281: LDL and STL. The bytes at ra + displacement go to rt, extended as the size says; a store writes rt's bytes and
marks by R281; an address outside LDM raises LOCAL_RANGE, a misaligned one ALIGN.
The model's own readings in it: log entry 29 (DEDUCED). -/
def Obligations.LocalMemory : Prop :=
  ∀ (n : CoreId) (rt ra : Rf) (size : BitVec 3) (off : BitVec 13) (s : State), Runs s n → (s.core n).gm ra = false →
    (size = 4 → rt.toNat < 16) →
    let c := s.core n
    let k : Nat := if size.toNat ≤ 4 then 2 ^ size.toNat else 2 ^ (size.toNat - 5)
    let a : Int := (c.gv ra).toNat + off.toInt * k
    (0 ≤ a → a + k ≤ 65536 → a % k = 0 →
      exec (.ldl n rt ra size off) s =
        done s n (c.load rt (decide (5 ≤ size.toNat)) (size == 4) (c.ldmBytes a.toNat k) (c.ldmMarked a.toNat k)) ∧
      (size.toNat < 4 → exec (.stl n rt ra size off) s =
        done s n (c.ldmStore a.toNat (leBytes k (c.gv rt).toNat) (c.gm rt))) ∧
      (size = 4 → exec (.stl n rt ra size off) s = done s n (c.ldmStore a.toNat (leBytes 16 (c.wv rt).toNat) (c.wm rt)))) ∧
    (a < 0 ∨ 65536 < a + k → exec (.ldl n rt ra size off) s = .next (s.exception n 0x03 (some (BitVec.ofInt 64 a)) 0)) ∧
    (0 ≤ a → a + k ≤ 65536 → a % k ≠ 0 →
      exec (.ldl n rt ra size off) s = .next (s.exception n 0x02 (some (BitVec.ofInt 64 a)) 0)) ∧
    (5 ≤ size.toNat → exec (.stl n rt ra size off) s = .next (s.exception n 0x01 none 0))

/-- R288, R289, R278: LDT passes the checks of R264 and waits for its data, which TILE_LOAD_RETURN delivers; STT passes them and
stores; a failed check raises ACCESS with its status. -/
def Sys2Proof.Claims.TileAccess : Prop :=
  ∀ (n : CoreId) (rt ra : Rf) (size : BitVec 3) (off : BitVec 13) (s : State), Runs s n → (s.core n).gm ra = false →
    (size = 4 → rt.toNat < 16) →
    let c := s.core n
    let k : Nat := if size.toNat ≤ 4 then 2 ^ size.toNat else 2 ^ (size.toNat - 5)
    let h := BitVec.ofNat 32 ((c.gv ra).toNat / 2 ^ 32)
    let o : Int := (c.gv ra).toNat % 2 ^ 32 + off.toInt * k
    (s.checkUse h o k k (some 0x01) = none →
      exec (.ldt n rt ra size off) s =
        .next (s.setCore n { c with stall := .load rt k (decide (5 ≤ size.toNat)) (size == 4) h o.toNat }) ∧
      (size.toNat < 4 → s.isImage h = false → exec (.stt n rt ra size off) s =
        .next ((s.bufWrite h o.toNat (leBytes k (c.gv rt).toNat) (c.gm rt)).setCore n
          ((s.bufWrite h o.toNat (leBytes k (c.gv rt).toNat) (c.gm rt)).core n).advance))) ∧
    (∀ e, s.checkUse h o k k (some 0x01) = some e →
      exec (.ldt n rt ra size off) s = .next (s.exception n 0x04 (some (BitVec.ofNat 64 (h.toNat * 2 ^ 32 + (o % 2 ^ 32).toNat))) e) ∧
      (size.toNat ≤ 4 → exec (.stt n rt ra size off) s =
        .next (s.exception n 0x04 (some (BitVec.ofNat 64 (h.toNat * 2 ^ 32 + (o % 2 ^ 32).toNat))) e)))

/-- R278, R281, R256, R312: the data of an LDT reaches its register with its mark, or raises BUSERR in bus-error mode; a core whose grace
ran out meanwhile then stops. -/
def Sys2Proof.Claims.TileReturns : Prop :=
  ∀ (n : CoreId) (rt : Rf) (k o : Nat) (sx wide : Bool) (h : W32) (s : State), s.clocked = true → (s.core n).run = .running →
    (s.core n).stall = .load rt k sx wide h o →
    let r := s.bufRead h o k
    let t := r.1.setCore n { r.1.core n with stall := .none }
    let loaded := t.setCore n (Core.load { r.1.core n with stall := .none } rt sx wide r.2.1 r.2.2).advance
    (r.2.2 = false ∨ r.1.flag F.TIL_CTL.BUSERR_MODE = false →
      ((r.1.core n).graceOver = false → exec (.tileLoadReturn n) s = .next loaded) ∧
      ((r.1.core n).run = .running → (r.1.core n).graceOver = true →
        exec (.tileLoadReturn n) s = .next (loaded.coreStopped n))) ∧
    (r.2.2 = true → r.1.flag F.TIL_CTL.BUSERR_MODE = true → (r.1.core n).graceOver = false → exec (.tileLoadReturn n) s =
      .next (t.exception n 0x06 (some (BitVec.ofNat 64 (h.toNat * 2 ^ 32 + o))) 0))

/-- R256, R264, R278, R281, R312: loads from and stores to tile memory, and the return of a load's data.
The model's own readings in it: log entry 29 (DEDUCED). -/
def Obligations.TileMemory : Prop := TileAccess ∧ TileReturns

/-- R296, R270: QPUT and QGET on an enabled queue outside a transaction store or take an item with Q 1, or do nothing with Q 0; QCNT
reads the item count. A disabled queue, or a number above 511, raises ACCESS with BAD_PARAM. -/
def Obligations.QueueInstructions : Prop :=
  ∀ (n : CoreId) (rd ra rb : Rf) (s : State), Runs s n → (s.core n).gm ra = false →
    let c := s.core n
    let q := (c.gv ra).toNat
    (q < 512 → s.flag F.QUE_CFG.EN q = true → (s.queue q).wp = (s.queue q).wp2 → (s.queue q).rp = (s.queue q).rp2 →
      exec (.qcnt n rd ra 0) s = done s n (c.setG rd (BitVec.ofNat 64 (s.qCount q)) false) ∧
      (rb.toNat < 16 → c.wm rb = false → c.depth = 0 → s.qCount q < s.qDepth q →
        ∃ t, exec (.qput n 0 ra rb) s = .next t ∧ (t.core n).fq = true ∧ (t.core n).pc = c.advance.pc ∧
          t.items.get (fun _ => 0) (s.qSlot q (s.queue q).wp) = c.wv rb &&& BitVec.ofNat 128 (2 ^ 127 - 1) ∧
          (t.queue q).wp = ((s.queue q).wp + 1) % (2 * s.qDepth q) ∧ (t.queue q).rp = (s.queue q).rp ∧
          (∀ r, r ≠ q → t.queue r = s.queue r) ∧ t = { s with cores := t.cores, items := t.items, queues := t.queues }) ∧
      (rb.toNat < 16 → c.wm rb = false → c.depth = 0 → s.qDepth q ≤ s.qCount q →
        exec (.qput n 0 ra rb) s = done s n { c with fq := false }) ∧
      (rd.toNat < 16 → s.qCount q = 0 →
        exec (.qget n rd ra 0) s = done s n { (c.setW rd 0 false) with fq := false }) ∧
      (rd.toNat < 16 → s.qCount q ≠ 0 →
        ∃ t, exec (.qget n rd ra 0) s = .next t ∧ (t.core n).fq = true ∧
          (t.core n).wv rd = s.items.get (fun _ => 0) (s.qSlot q (s.queue q).rp) ||| BitVec.ofNat 128 (2 ^ 127) ∧
          (t.core n).wm rd = false ∧ (t.queue q).rp = ((s.queue q).rp + 1) % (2 * s.qDepth q) ∧
          (t.queue q).wp = (s.queue q).wp ∧ (∀ r, r ≠ q → t.queue r = s.queue r) ∧
          t = { s with cores := t.cores, queues := t.queues })) ∧
    (511 < q ∨ s.flag F.QUE_CFG.EN q = false →
      (rb.toNat < 16 → c.wm rb = false → c.depth = 0 →
        exec (.qput n 0 ra rb) s = .next (s.exception n 0x04 (some (c.gv ra)) 0x0010)) ∧
      exec (.qcnt n rd ra 0) s = .next (s.exception n 0x04 (some (c.gv ra)) 0x0010) ∧
      (rd.toNat < 16 → exec (.qget n rd ra 0) s = .next (s.exception n 0x04 (some (c.gv ra)) 0x0010)))

/-- R297, R266: BALLOC takes the head of the first free list that is not empty along the class and its NEXT classes: the handle in rd and
Q 1. With every list of the chain empty, or POOL stopped, rd is all ones, Q 0 and EMPTY_SEEN set. A class above 7 raises ACCESS. -/
def Sys2Proof.Claims.BallocForms : Prop :=
  ∀ (n : CoreId) (rd ra : Rf) (s : State), Runs s n → (s.core n).gm ra = false →
    let c := s.core n
    let k := (c.gv ra).toNat
    let next (j : Nat) : Nat := s.fld F.POOL_CLASS.NEXT j
    let taken (j b : Nat) (l : List Nat) : Prop :=
      ∃ t, exec (.balloc n rd ra 0) s = .next t ∧
        t.core n = ((c.setG rd (BitVec.ofNat 64 ((j * 2 ^ 29 + b * 256 + (s.buf j b).gen.toNat) % 2 ^ 32)) false).setQ true).advance ∧
        t.freeList j = l ∧ t.buf j b = { s.buf j b with owner := 0x01, core := n.val, provisional := false } ∧
        (∀ i, i ≠ j → t.freeList i = s.freeList i) ∧ t = { s with cores := t.cores, bufs := t.bufs, free := t.free }
    (∀ b l, k < 8 → s.flag F.POOL_CTL.RUN = true → s.freeList k = b :: l → taken k b l) ∧
    (∀ b l, k < 8 → s.flag F.POOL_CTL.RUN = true → s.freeList k = [] → k < next k → next k < 8 → s.freeList (next k) = b :: l →
      taken (next k) b l) ∧
    (k < 8 → s.flag F.POOL_CTL.RUN = false ∨ (s.freeList k = [] ∧ (next k ≤ k ∨ 8 ≤ next k)) →
      ∃ t, exec (.balloc n rd ra 0) s = .next t ∧
        t.core n = ((c.setG rd 0xFFFFFFFFFFFFFFFF false).setQ false).advance ∧ t.flag F.POOL_STAT.EMPTY_SEEN = true ∧
        OnlyCore n [0x700008] s t) ∧
    (7 < k → exec (.balloc n rd ra 0) s = .next (s.exception n 0x04 (some (c.gv ra)) 0x0010))

/-- R297, R267, R304: BFREE outside a transaction frees a live buffer of the stream cores: its tiles are empty, its generation moves on
and it joins the tail of its free list. A failing check answers its status with Q 0, is counted and recorded, and leaves the
buffers as they are, inside a transaction too. There the checks are made and the free is staged; in an aborted one nothing is done. -/
def Sys2Proof.Claims.BfreeForms : Prop :=
  ∀ (n : CoreId) (rd ra : Rf) (s : State), Runs s n → (s.core n).gm ra = false →
    let c := s.core n
    let h : W32 := BitVec.ofNat 32 (c.gv ra).toNat
    let live := s.handleInClass h = true ∧ s.handleLive h = true
    let answers (x : Core) (st : W16) : Core := (x.setG rd (st.zeroExtend 64) false).setQ (st == 0)
    let fails (st : W16) : Prop :=
      (c.depth = 0 ∨ c.aborted = false → ∃ t, exec (.bfree n rd ra 0) s = .next t ∧ (t.core n).gv rd = (if rd = 0 then 0 else st.zeroExtend 64) ∧
        (t.core n).fq = false ∧ (t.core n).pc = c.advance.pc ∧ t.flag F.POOL_STAT.BAD_FREE_SEEN = true ∧
        t.fld F.POOL_LOG1.STATUS = st.toNat ∧ t.bufs = s.bufs ∧ t.free = s.free ∧ (t.core n).staged = c.staged ∧
        (t.core n).depth = c.depth)
    (c.depth = 0 → live → (s.bufOf h).owner = 0x01 →
      ∃ t, exec (.bfree n rd ra 0) s = .next t ∧ t.core n = (answers c 0).advance ∧
        t.bufOf h = { owner := 0, core := 0, gen := (s.bufOf h).gen + 1, provisional := false } ∧
        t.freeList (hClass h) = s.freeList (hClass h) ++ [hIndex h] ∧ t.mem = s.mem ∧ t.regs = s.regs ∧
        ∀ k, s.bufTile h ≤ k → k < s.bufTile h + 4 ^ hClass h → t.tileRec k = {}) ∧
    (s.handleInClass h = false → fails 0x0011) ∧
    (s.handleInClass h = true → s.handleLive h = false → fails 0x0013) ∧
    (live → (s.bufOf h).owner ≠ 0x01 → fails 0x0012) ∧
    (c.depth ≠ 0 → c.aborted = false → live → (s.bufOf h).owner = 0x01 → c.staged.length < 64 →
      exec (.bfree n rd ra 0) s = done s n (answers { c with staged := c.staged ++ [.bfree h] } 0)) ∧
    (c.depth ≠ 0 → c.aborted = true → exec (.bfree n rd ra 0) s = done s n (answers c 0x0014))

/-- R297, R266, R267, R304: BALLOC and BFREE. -/
def Obligations.PoolInstructions : Prop := BallocForms ∧ BfreeForms

/-- R298, R299, R304: ISSUE of an unmarked, aligned descriptor to a permitted target with an enabled completion queue: the engine accepts
it when it has room; without room a blocking ISSUE stalls and a non-blocking one answers EMPTY; inside a transaction it is staged. -/
def Sys2Proof.Claims.IssueForms : Prop :=
  ∀ (n : CoreId) (rd ra target : Rf) (cq : BitVec 9) (s : State), Runs s n →
    let c := s.core n
    let t := target.toNat
    let a := (c.gv ra).toNat
    let d := c.ldmBytes a 32
    let x := s.accept n t d cq.toNat
    let ok := t < 9 ∧ c.engineMask.getLsbD t = true
    (c.gm ra = false → ok → a ≤ 65535 → a % 32 = 0 → c.ldmMarked a 32 = false → s.flag F.QUE_CFG.EN cq.toNat = true →
      (c.depth = 0 → s.roomFor n t d = true → ∀ mode : BitVec 2, mode.toNat < 2 →
        exec (.issue n rd ra target mode cq) s = .next (x.setCore n ((((x.core n).setG rd 0 false).setQ true).advance))) ∧
      (c.depth = 0 → s.roomFor n t d = false →
        exec (.issue n rd ra target 1 cq) s = done s n ((c.setG rd 0x0002 false).setQ false) ∧
        exec (.issue n rd ra target 0 cq) s = .next (s.setCore n { c with stall := .issue rd t d cq.toNat })) ∧
      (c.depth ≠ 0 → c.aborted = false → c.staged.length < 64 → ∀ mode : BitVec 2, mode.toNat < 2 →
        exec (.issue n rd ra target mode cq) s =
          done s n ((Core.setG { c with staged := c.staged ++ [.issue t d cq.toNat] } rd 0 false).setQ true))) ∧
    (∀ mode : BitVec 2, mode.toNat < 2 → ok → c.depth ≠ 0 → c.aborted = true →
      exec (.issue n rd ra target mode cq) s = done s n ((c.setG rd 0x0014 false).setQ false)) ∧
    (∀ mode : BitVec 2, mode.toNat < 2 → ok → c.depth = 0 →
      (c.gm ra = true → exec (.issue n rd ra target mode cq) s = .next (s.exception n 0x05 none 0)) ∧
      (c.gm ra = false → 65535 < a → exec (.issue n rd ra target mode cq) s = .next (s.exception n 0x03 (some (c.gv ra)) 0)) ∧
      (c.gm ra = false → a ≤ 65535 → a % 32 ≠ 0 →
        exec (.issue n rd ra target mode cq) s = .next (s.exception n 0x02 (some (c.gv ra)) 0)) ∧
      (c.gm ra = false → a ≤ 65535 → a % 32 = 0 → c.ldmMarked a 32 = false → s.flag F.QUE_CFG.EN cq.toNat = false →
        exec (.issue n rd ra target mode cq) s = .next (s.exception n 0x04 (some (cq.zeroExtend 64)) 0x0010))) ∧
    (∀ mode : BitVec 2, 8 < t ∨ c.engineMask.getLsbD t = false →
      exec (.issue n rd ra target mode cq) s = .next (s.exception n 0x01 (some (BitVec.ofNat 64 t)) 0)) ∧
    (∀ mode : BitVec 2, 1 < mode.toNat → ok → exec (.issue n rd ra target mode cq) s = .next (s.exception n 0x01 none 0))

/-- R299: the engine accepts the descriptor of a core stalled in a blocking ISSUE once its queue has room, and the ISSUE answers OK. -/
def Sys2Proof.Claims.IssueAccepts : Prop :=
  ∀ (n : CoreId) (rd : Rf) (t cq : Nat) (d : List Byte) (s : State), s.canonical = true → s.clocked = true → (s.core n).run = .running →
    (s.core n).stall = .issue rd t d cq →
    let x := (s.setCore n { s.core n with stall := .none }).accept n t d cq
    (s.roomFor n t d = true →
      exec (.issueAccept n) s = .next (x.setCore n ((((x.core n).setG rd 0 false).setQ true).advance))) ∧
    (s.roomFor n t d = false → exec (.issueAccept n) s = .next s)

/-- R11, R299, R322: what acceptance does in an engine other than CMP that runs, for a well-formed descriptor (and, in CIP, with none that
is ill-formed waiting, R348): the command joins the end of the engine's queue, and every named buffer that the stream cores own passes to the engine. -/
def Sys2Proof.Claims.Acceptance : Prop :=
  ∀ (n t cq : Nat) (d : List Byte) (s : State), s.canonical = true → 0 < t → t < 9 → descOk t d = true → s.engineOn t = true →
    (t = 1 → ∀ e ∈ s.cmds 1, descOk 1 e.desc = true) →
    let x := s.accept n t d cq
    (∃ e : Cmd, x.cmds t = s.cmds t ++ [e] ∧ e.core = n ∧ e.target = t ∧ e.desc = d ∧ e.cq = cq ∧
      (e.badOwner = true ↔ ∃ h ∈ namedBuffers t d, s.handleInClass h = true ∧ s.handleLive h = true ∧ (s.bufOf h).owner ≠ 0x01)) ∧
    (∀ h ∈ namedBuffers t d, s.handleInClass h = true → s.handleLive h = true → (s.bufOf h).owner = 0x01 →
      some (x.bufOf h).owner = tgtOwner t) ∧
    x.held = s.held ∧ x.mem = s.mem ∧ x.cores = s.cores

/-- R11, R298, R299, R304, R322: ISSUE in both modes, and its acceptance.
The model's own readings in it: log entry 21 (DESIGN CHOICE), log entry 22 (DESIGN CHOICE), log entry 80 (DEDUCED). -/
def Obligations.IssueInstructions : Prop := IssueForms ∧ IssueAccepts ∧ Acceptance

/-- R300, R301, R310: WAIT returns at once on a masked event or a timeout of 0, with the events in rd and the edge bits cleared; else
the core waits until an event or, unless it waits for ever, the timeout. TIMER's event sets its bit.
The model's own readings in it: log entry 23 (DESIGN CHOICE). -/
def Obligations.WaitAndEvents : Prop :=
  ∀ (n : CoreId) (rd ra : Rf) (s : State), s.canonical = true → s.inRun = true → (s.core n).run = .running →
    let c := s.core n
    let v := s.evp c &&& c.evm
    let back (c : Core) : Core := { (c.setG rd v false) with evEdge := c.evEdge &&& ~~~(v &&& 0x30F), fq := v != 0, stall := .none }
    (Runs s n → c.gm ra = false → (v ≠ 0 ∨ c.gv ra = 0) → exec (.wait n rd ra 0) s = done s n (back c)) ∧
    (Runs s n → c.gm ra = false → v = 0 → c.gv ra ≠ 0 → exec (.wait n rd ra 0) s =
      .next (s.setCore n { c with stall := .wait rd (c.gv ra == 0xFFFFFFFFFFFFFFFF) })) ∧
    (∀ forever timeout, c.stall = .wait rd forever → v ≠ 0 ∨ (timeout = true ∧ forever = false) →
      exec (.waitReturn n timeout) s = done s n (back c)) ∧
    (∀ forever timeout, c.stall = .wait rd forever → v = 0 → timeout = false ∨ forever = true →
      exec (.waitReturn n timeout) s = .next s) ∧
    (c.timer ≠ 0 → exec (.timerEvent n) s = .next (s.setCore n { c with timer := 0, evEdge := c.evEdge ||| 0x100 }))

/-- R302, R306, R307: the system instructions.
The model's own readings in it: log entry 23 (DESIGN CHOICE). -/
def Obligations.SystemInstructions : Prop :=
  ∀ (n : CoreId) (rd ra rb : Rf) (imm : BitVec 14) (s : State), Runs s n →
    let c := s.core n
    exec (.nop n 0 0 0) s = done s n c ∧
    (imm.toNat ≤ 2 → exec (.pwrhint n 0 0 0 imm) s = done s n { c with level := imm.toNat }) ∧
    (c.stopReq = false → ∃ t, exec (.halt n 0 0 0) s = .next t ∧ (t.core n).run = .halted ∧ (t.core n).pc = c.pc ∧
      (t.core n).g = c.g ∧ (t.core n).depth = 0 ∧ t.mem = s.mem) ∧
    (c.stopReq = true → ∃ t, exec (.halt n 0 0 0) s = .next t ∧ (t.core n).run = .stopped) ∧
    (ra = 0 → exec (.mfs n rd ra 0) s = done s n (c.setG rd (BitVec.ofNat 64 c.pc) false)) ∧
    (ra = 3 → exec (.mfs n rd ra 0) s = done s n (c.setG rd c.evm false)) ∧
    (ra = 4 → exec (.mfs n rd ra 0) s = done s n (c.setG rd (BitVec.ofNat 64 n.val) false)) ∧
    (ra = 9 → exec (.mfs n rd ra 0) s = done s n (c.setG rd (BitVec.ofNat 64 c.fpc) false)) ∧
    (ra = 16 → exec (.mfs n rd ra 0) s = done s n (c.setG rd (BitVec.ofNat 64 c.loops.length) false)) ∧
    (16 < ra.toNat → exec (.mfs n rd ra 0) s = .next (s.exception n 0x01 none 0)) ∧
    (rd = 3 → c.gm ra = false → exec (.mts n rd ra 0) s = done s n { c with evm := c.gv ra &&& 0x7FF }) ∧
    (rd = 7 → c.gm ra = false → exec (.mts n rd ra 0) s = done s n { c with timer := c.gv ra }) ∧
    (rd = 1 → exec (.mts n rd ra 0) s = done s n
      { c with
        fz := (c.gv ra).getLsbD 0, fn := (c.gv ra).getLsbD 1, fc := (c.gv ra).getLsbD 2, fv := (c.gv ra).getLsbD 3
        fq := (c.gv ra).getLsbD 4, fm := c.gm ra }) ∧
    (rd = 0 ∨ rd = 2 ∨ rd = 4 → exec (.mts n rd ra 0) s = .next (s.exception n 0x01 none 0)) ∧
    exec (.trap n 0 0 rb) s = .next (s.exception n 0x08 (some (BitVec.ofNat 64 rb.toNat)) 0) ∧
    (c.fh = true → c.gm ra = false → (c.gv ra).toNat % 4 = 0 →
      exec (.eret n 0 ra 0) s = .next (s.setCore n (Core.jump { c with fh := false } (c.gv ra).toNat))) ∧
    (c.fh = false → exec (.eret n 0 ra 0) s = .next (s.exception n 0x01 none 0)) ∧
    exec (.pchk n rd ra 0) s = done s n (c.setG rd (if c.gm ra then 1 else 0) false) ∧
    (ra.toNat < 16 → exec (.pchkw n rd ra 0) s = done s n (c.setG rd (if c.wm ra then 1 else 0) false)) ∧
    (∃ t, exec (.sig n 0 ra 0) s = .next t ∧ t = { s with cores := t.cores } ∧
      ∀ k, k < 16 → k ≠ n.val → t.core k =
        (if (c.gv ra).getLsbD k then { s.core k with evEdge := (s.core k).evEdge ||| 0x200 } else s.core k))

/-- R303 to R305: beginning, staging and abandoning a transaction, and a nested TXC. -/
def Sys2Proof.Claims.TransactionSteps : Prop :=
  ∀ (n : CoreId) (rd ra rb : Rf) (s : State), Runs s n →
    let c := s.core n
    let a := (c.gv ra).toNat % 2 ^ 20
    (c.depth = 0 → exec (.txb n 0 0 0) s =
      done s n { c with depth := 1, aborted := false, cause := 0, staged := [], overlap := false }) ∧
    (c.depth ≠ 0 → c.depth < 63 → exec (.txb n 0 0 0) s = done s n { c with depth := c.depth + 1 }) ∧
    (63 ≤ c.depth → exec (.txb n 0 0 0) s = .next (s.exception n 0x01 none 0)) ∧
    (c.depth ≠ 0 → exec (.txa n 0 0 0) s = done s n { c with aborted := true, cause := 4, staged := [] }) ∧
    (c.depth ≠ 0 → c.gm ra = false → c.gm rb = false → txrValid a = true → c.aborted = false → c.staged.length < 64 →
      exec (.tset n 0 ra rb) s = done s n { c with staged := c.staged ++ [.tset a (c.gv rb)] }) ∧
    (c.depth ≠ 0 → c.gm ra = false → c.gm rb = false → txrValid a = true → c.aborted = false → 64 ≤ c.staged.length →
      ∃ t, exec (.tset n 0 ra rb) s = .next t ∧ (t.core n).aborted = true ∧ (t.core n).cause = 2 ∧ (t.core n).staged = []) ∧
    (c.depth ≠ 0 → c.aborted = true → exec (.tset n 0 ra rb) s = done s n c) ∧
    (c.depth ≠ 0 → c.gm ra = false → c.gm rb = false → txrValid a = false → c.aborted = false →
      exec (.tset n 0 ra rb) s = .next (s.exception n 0x04 (some (BitVec.ofNat 64 a)) 0x0010)) ∧
    (c.depth = 0 → ∀ i ∈ [Instr.txc n rd 0 0, Instr.txa n 0 0 0, Instr.tset n 0 ra rb],
      exec i s = .next (s.exception n 0x01 none 0)) ∧
    (1 < c.depth → exec (.txc n rd 0 0) s = done s n
      ((Core.setG { c with depth := c.depth - 1 } rd (if c.aborted then 0x0014 else 0) false).setQ (!c.aborted))) ∧
    (c.depth = 1 → c.aborted = true → exec (.txc n rd 0 0) s = done s n
      ((Core.setG { c with depth := 0, staged := [], overlap := false } rd 0x0014 false).setQ false))

/-- R303, R330, R331: TXC at depth 1 commits a transaction of register writes when the image is valid and no overlap was committed
meanwhile: every register takes its value, COMMITS counts, and rd reads OK. A stalled TXC commits so once it can, or aborts with
cause CAPACITY at its timeout. -/
def Sys2Proof.Claims.TransactionEnds : Prop :=
  ∀ (n : CoreId) (rd : Rf) (a : Nat) (v : W64) (s : State), s.canonical = true → s.clocked = true → (s.core n).run = .running →
    let c := s.core n
    let won (t : State) : Prop := t.txReg a = v ∧ (t.core n).depth = 0 ∧ (t.core n).staged = [] ∧ (t.core n).fq = true ∧
      (t.core n).stall = .none ∧ (t.core n).pc = c.advance.pc ∧
      t.fld F.CORE_TXCNT.COMMITS = Min.min (s.fld F.CORE_TXCNT.COMMITS + 1) 65535
    (c.depth = 1 → c.aborted = false → s.imageOk = true → c.overlap = false → c.staged = [.tset a v] →
      (Runs s n → ∃ t, exec (.txc n rd 0 0) s = .next t ∧ won t) ∧
      (c.stall = .commit rd → ∃ t, exec (.txCommit n) s = .next t ∧ won t)) ∧
    (c.stall = .commit rd → ∃ t, exec (.txCapacityTimeout n) s = .next t ∧ (t.core n).depth = 0 ∧ (t.core n).staged = [] ∧
      (t.core n).aborted = true ∧ (t.core n).cause = 2 ∧ (t.core n).fq = false ∧ (t.core n).stall = .none ∧
      (t.core n).gv rd = (if rd = 0 then 0 else 0x0014) ∧ t.txr = s.txr) ∧
    (Runs s n → c.depth = 1 → c.aborted = false → s.imageOk = true → c.overlap = true →
      ∃ t, exec (.txc n rd 0 0) s = .next t ∧ (t.core n).cause = 1 ∧ (t.core n).fq = false ∧ t.txr = s.txr)

/-- R302 to R304, R330, R331: the transaction instructions and the commit.
The model's own readings in it: log entry 79 (DEDUCED). -/
def Obligations.TransactionEffects : Prop := TransactionSteps ∧ TransactionEnds

/-- R300, R311, R312: a start of a core with a verified image that no load names, the stop requests, and SIGNAL from the host. -/
def Obligations.CoreStartStop : Prop :=
  ∀ (n : CoreId) (s : State), s.canonical = true → s.inRun = true →
    let c := s.core n
    (c.run ≠ .running → c.imgOk = true → s.flag F.CORE_LOAD_STAT.BUSY = false →
      ∃ t, exec (.coreStart n) s = .next t ∧ OnlyCore n [0x500100 + 16 * n.val] s t ∧
        (t.core n).run = .running ∧ (t.core n).pc = c.entry ∧ (t.core n).g = [] ∧ (t.core n).w = [] ∧
        (t.core n).level = 0 ∧ (t.core n).loops = [] ∧ (t.core n).depth = 0 ∧ (t.core n).ldm = c.ldm ∧ (t.core n).im = c.im) ∧
    (c.run ≠ .running → c.imgOk = false → ∃ t, exec (.coreStart n) s = .next t ∧
      t.flag F.CORE_STAT.START_REFUSED n.val = true ∧ t.cores = s.cores) ∧
    (c.run = .running → s.fld F.CORE_CFG.GRACE ≠ 0 →
      ∃ t, exec (.coreStopRequest n) s = .next t ∧ t.core n = { c with stopReq := true } ∧
        t.flag F.CORE_CTL.RUN n.val = false ∧ OnlyCore n [0x500100 + 16 * n.val] s t) ∧
    (c.run = .running → s.fld F.CORE_CFG.GRACE = 0 →
      ∃ t, exec (.coreStopRequest n) s = .next t ∧ (t.core n).run = .stopped ∧ t.flag F.CORE_CTL.RUN n.val = false) ∧
    (c.run = .running → c.stopReq = true →
      (c.stall = .none ∨ (∃ rd x, c.stall = .wait rd x) ∨ (∃ rd e d q, c.stall = .issue rd e d q) →
        ∃ t, exec (.coreGraceExpiry n) s = .next t ∧ (t.core n).run = .stopped ∧ (t.core n).stall = .none ∧
          (t.core n).depth = 0 ∧ (t.core n).g = c.g ∧ t.mem = s.mem ∧ t.accepted = s.accepted) ∧
      ((∃ rt k sx w h o, c.stall = .load rt k sx w h o) ∨ (∃ rd, c.stall = .commit rd) →
        exec (.coreGraceExpiry n) s = .next (s.setCore n { c with graceOver := true }))) ∧
    (c.run ≠ .running ∨ c.stopReq = false → exec (.coreGraceExpiry n) s = .next s) ∧
    (c.run ≠ .stopped → ∃ t, exec (.coreForceStop n) s = .next t ∧ (t.core n).run = .stopped ∧ t.mem = s.mem ∧
      t.accepted = s.accepted) ∧
    exec (.coreSignalWrite n) s = .next (s.setCore n { c with evEdge := c.evEdge ||| 0x200 })

/-- R314, R315: a load of stopped targets from a valid buffer range begins with IMG_OK cleared, and keeps what it found; its end sets RESULT, with
IMG_OK of those targets only for an image that passes; the LDM window takes writes of a core that does not run.
The model's own readings in it: log entry 80 (DEDUCED). -/
def Obligations.ProgramLoading : Prop :=
  ∀ (off : BitVec 16) (v : W32) (s : State), s.canonical = true → s.inRun = true →
    let h := BitVec.ofNat 32 (s.fld F.CORE_LOAD_H.HANDLE)
    let len := s.fld F.CORE_LOAD_L.LENGTH
    let b := (s.bufRead s.load.handle 0 s.load.length).2
    (s.flag F.CORE_LOAD_STAT.BUSY = false → s.checkRange h 0 len = none →
      (∀ k, k < 16 → (s.fld F.CORE_LOAD_CTL.TARGETS).testBit k = true → (s.core k).run = .stopped) →
      s.fld F.CORE_LOAD_CTL.TARGETS % 2 ^ 16 ≠ 0 →
      ∃ t, exec .programLoad s = .next t ∧ t.flag F.CORE_LOAD_STAT.BUSY = true ∧
        t.load = { handle := h, length := len, targets := s.loadTargets } ∧
        ∀ k, k < 16 → t.core k =
          (if (s.fld F.CORE_LOAD_CTL.TARGETS).testBit k then { s.core k with imgOk := false } else s.core k)) ∧
    (s.flag F.CORE_LOAD_STAT.BUSY = true → s.checkRange s.load.handle 0 s.load.length = none → b.2 = false → 1416 ≤ s.load.length →
      imgHeaderOk b.1 = true → imgLengthsOk b.1 = true →
      ∃ t, exec .programLoadDone s = .next t ∧ t.flag F.CORE_LOAD_STAT.BUSY = false ∧
        t.fld F.CORE_LOAD_STAT.RESULT = s.imgResult b.1 ∧
        ∀ k ∈ s.load.targets,
          (t.core k).imgOk = decide (s.imgResult b.1 = 0) ∧ (t.core k).codeLen = natAt b.1 32 4 ∧
          (t.core k).entry = natAt b.1 24 4) ∧
    (off.toNat % 4 = 0 → s.flag F.CORE_WSEL.SPACE = false → (s.core (s.fld F.CORE_WSEL.CORE)).run ≠ .running →
      exec (.ldmWindowWrite off v) s = .next (s.setCore (s.fld F.CORE_WSEL.CORE)
        ((s.core (s.fld F.CORE_WSEL.CORE)).ldmStore off.toNat (leBytes 4 v.toNat) false)))

/-! ## Engine commands -/

namespace Sys2Proof.Claims

/-- Command `i` of engine `t` is `c`, of this code; the engine's clock runs, FENCE lets it start, and it named no buffer of another
owner. -/
def Starts (s : State) (t i code : Nat) (c : Cmd) : Prop :=
  s.canonical = true ∧ s.clocked = true ∧ (s.cmds t)[i]? = some c ∧ c.target = t ∧ dCode c.desc = code ∧ s.fenceOpen c = true ∧ c.badOwner = false

/-- The completion item of `c` is held, behind those that were, and `c` has left its engine's queue. -/
def Ended (s t : State) (c : Cmd) (st : W16) (detail result : Nat) (mark : Bool) : Prop :=
  t.held = s.held ++ [⟨completionItem c.target (dCode c.desc) mark st detail result (dTag c.desc), c⟩] ∧
    t.cmds c.target = (s.cmds c.target).erase c ∧ ∀ k, k ≠ c.target → t.cmds k = s.cmds k

/-- The tile that a tile address lies in. -/
def tileAt (s : State) (a : W64) : Nat := s.bufTile (taHandle a) + taOff a / 4096

/-- A write of `n` bytes at a tile address lies in one tile and asks for no verify (R251). -/
def Quiet (s : State) (a : W64) (n : Nat) : Prop :=
  0 < n ∧ taOff a % 4096 + n ≤ 4096 ∧ (s.strong (tileAt s a) = false ∨ s.locatedIn (tileAt s a) (taOff a % 4096) n = [])

/-- Bytes have been written at a tile address: they stand there, FILL covers them, VERIFIED is clear, the mark is the tile's own or
the bytes'; stale bytes between FILL and them are zero; every other byte of memory and every other tile is as before (R250, R255). -/
def Wrote (s t : State) (a : W64) (l : List Byte) (mark : Bool) : Prop :=
  let T := tileAt s a
  let o := taOff a % 4096
  let r := s.tileRec T
  t.memBytes (4096 * T + o) l.length = l ∧
    (∀ b, b < 4096 * T + Min.min r.fill o ∨ 4096 * T + o + l.length ≤ b → t.memByte b = s.memByte b) ∧
    t.tileRec T = { r with fill := Max.max r.fill (o + l.length), verified := false, poison := r.poison || mark } ∧
    ∀ u, u ≠ T → t.tileRec u = s.tileRec u

end Sys2Proof.Claims

/-- R318, R323 to R325: COPY, FILL and CHECK, in ranges of one tile: what they write and report; with length 0 they end OK at once,
with a failing check they end with its status.
The model's own readings in it: log entry 26 (DEDUCED). -/
def Obligations.TileCommands : Prop :=
  ∀ (i : Nat) (c : Cmd) (s : State),
    let n := dC c.desc
    let r := (s.start c).taRead (dA c.desc) n
    (Starts s 8 i 1 c →
      (n = 0 → exec (.copy i) s = .next ((s.start c).finish c 0)) ∧
      (∀ e, n ≠ 0 → s.engCheck c (dA c.desc) n = some e → exec (.copy i) s = .next ((s.start c).finish c e)) ∧
      (n ≠ 0 → s.engCheck c (dA c.desc) n = none → s.engCheckW c (dB c.desc) n = none →
        taOff (dA c.desc) % 4096 + n ≤ 4096 → Quiet r.1 (dB c.desc) n → r.2.2 = false →
        ∃ t, exec (.copy i) s = .next t ∧ Wrote r.1 t (dB c.desc) r.2.1 false ∧ t.held = r.1.held ++ [⟨completionItem 8 1 false 0 0 n (dTag c.desc), c⟩])) ∧
    (Starts s 8 i 2 c →
      (n = 0 → exec (.fill i) s = .next ((s.start c).finish c 0)) ∧
      (∀ e, n ≠ 0 → s.engCheckW c (dA c.desc) n = some e → exec (.fill i) s = .next ((s.start c).finish c e)) ∧
      (n ≠ 0 → s.engCheckW c (dA c.desc) n = none → Quiet s (dA c.desc) n →
        ∃ t, exec (.fill i) s = .next t ∧
          Wrote s t (dA c.desc) (List.replicate n (BitVec.ofNat 8 (dArg c.desc))) false ∧ Ended s t c 0 0 n false ∧
          t = { s with mem := t.mem, located := t.located, tiles := t.tiles, held := t.held, accepted := t.accepted })) ∧
    (Starts s 8 i 3 c →
      (n = 0 → exec (.check i) s = .next ((s.start c).finish c 0)) ∧
      (∀ e, n ≠ 0 → s.engCheck c (dA c.desc) n = some e → exec (.check i) s = .next ((s.start c).finish c e)) ∧
      (n ≠ 0 → s.engCheck c (dA c.desc) n = none → r.2.2 = false → exec (.check i) s =
        .next (r.1.finish c (if (dArg c.desc).testBit 0 ∧ (crc32c r.2.1).toNat ≠ dD c.desc then 0x0021 else 0) 0
          (crc32c r.2.1).toNat)) ∧
      (n ≠ 0 → s.engCheck c (dA c.desc) n = none → r.2.2 = true → exec (.check i) s = .next (r.1.finish c 0x0020)))

/-- R15, R317, R322: a command that named a buffer of another owner ends BAD_OWNER and nothing is read or written; one whose code is
another, that FENCE holds back, or whose engine has no clock, does not start; no command, nothing happens.
The model's own readings in it: log entry 8 (DEDUCED), log entry 34 (DEDUCED), log entry 79 (DEDUCED). -/
def Obligations.CommandsThatDoNotRun : Prop :=
  ∀ (i : Nat) (r : HostRead) (s : State),
    let cases : List (Instr × Nat × Nat) :=
      [(.copy i, 8, 1), (.fill i, 8, 2), (.check i, 8, 3), (.erase i, 7, 2), (.attest i, 7, 3), (.fetch i r, 4, 1), (.deliver i, 4, 2),
       (.encode i, 2, 1), (.write i, 2, 2), (.rebuildRead i, 3, 2), (.leakCommit i, 3, 3)]
    ∀ e ∈ cases,
      (∀ c, (s.cmds e.2.1)[i]? = some c → dCode c.desc = e.2.2 → s.clocked = true → s.fenceOpen c = true → c.badOwner = true →
        exec e.1 s = .next ((s.start c).finish c 0x0012)) ∧
      (∀ c, (s.cmds e.2.1)[i]? = some c → dCode c.desc ≠ e.2.2 ∨ s.fenceOpen c = false ∨ s.clocked = false → exec e.1 s = .next s) ∧
      ((s.cmds e.2.1)[i]? = none → exec e.1 s = .next s)

/-- R343, R345 to R347, R349, R350, R355: ENCRYPT and DECRYPT at the head of their core's queue. A failing check ends the command; in
its turn it writes every block processed under the slot's key, in ranges of one tile; before its turn it waits. With block count 0
an ENCRYPT of the holder ends the message and a DECRYPT clears the provisional mark of the buffer named. No ill-formed command waits,
which would end with it (R348).
The model's own readings in it: log entry 9 (DEDUCED), log entry 10 (DEDUCED), log entry 25 (PRESUMED). -/
def Obligations.CipherCommands : Prop :=
  ∀ (i : Nat) (c : Cmd) (s : State),
    let n := dC c.desc
    let u := s.start c
    let v := if cipUrgent c.desc then (if s.lockHeld then u.bump F.CIP_CNT.SUSPENDS else u).bump F.CIP_CNT.MESSAGES else u
    let r := v.taRead (dA c.desc) (16 * n)
    let key := (s.key (dArg c.desc % 128)).bytes
    ∀ dec : Bool,
    let cmd : Instr := if dec then .decrypt i else .encrypt i
    Starts s 1 i (if dec then 2 else 1) c → s.cipHead c = true → (∀ e ∈ s.cmds 1, descOk 1 e.desc = true) →
      (∀ e, n ≠ 0 → s.cipCheck c = some e → exec cmd s = .next (u.finish c e)) ∧
      (n ≠ 0 → s.cipCheck c = none → s.cipTurn c = false → exec cmd s = .next s) ∧
      (n ≠ 0 → s.cipCheck c = none → s.cipTurn c = true → taOff (dA c.desc) % 4096 + 16 * n ≤ 4096 →
        Quiet r.1 (dB c.desc) (16 * n) → r.2.2 = false → ∃ t, exec cmd s = .next t ∧
          Wrote r.1 t (dB c.desc)
            ((List.range n).flatMap fun k =>
              (if dec then Aes.decrypt key else Aes.encrypt key) (bytesAt r.2.1 (16 * k) 16)) false ∧
          t.held = r.1.held ++ [⟨completionItem 1 (if dec then 2 else 1) false 0 0 n (dTag c.desc), c⟩]) ∧
      (n = 0 → dec = true → exec cmd s = .next ((u.setProvisional (taHandle (dB c.desc)) false).finish c 0)) ∧
      (n = 0 → dec = false → s.lockHeld = false ∨ s.holder ≠ c.core → exec cmd s = .next (u.finish c 0)) ∧
      (n = 0 → dec = false → s.lockHeld = true → s.holder = c.core → s.earlierOpen c = false →
        ∃ t, exec cmd s = .next t ∧ t.lockHeld = false ∧
          t.fld F.CIP_CNT.MESSAGES = Min.min (s.fld F.CIP_CNT.MESSAGES + 1) 65535 ∧ Ended s t c 0 0 0 false)

/-- R349, R350, R366: the lock of CIP. The oldest waiting block command takes a free lock for its core, slot and key size; idle
time, a write of FREE, and a stop of the engine end the message, the last two with the commands they end NOT_READY.
The model's own readings in it: log entry 9 (DEDUCED), log entry 10 (DEDUCED). -/
def Obligations.CipLockRules : Prop :=
  ∀ s : State, s.canonical = true → s.inRun = true → (∀ c ∈ s.cmds 1, c.target = 1) →
    let ends (p : Cmd → Bool) : List Held :=
      ((s.cmds 1).filter p).map fun c => ⟨completionItem 1 (dCode c.desc) false 0x0003 0 0 (dTag c.desc), c⟩
    (∀ c l, s.lockHeld = false → s.cipWaiting false = c :: l → c.core < 16 → ∃ t, exec .cipLockTake s = .next t ∧
      t.lockHeld = true ∧ t.holder = c.core ∧ t.fld F.CIP_LOCK.SLOT = dArg c.desc % 128 ∧
      t.fld F.CIP_LOCK.KSIZE = dArg c.desc / 256 % 4 ∧ t.lockEnd = none ∧ OnlyRegs [0xA00004] s { t with lockEnd := s.lockEnd }) ∧
    (s.lockHeld = true → exec .cipLockTake s = .next s) ∧
    (s.lockHeld = true → s.fld F.CIP_CTL.LOCK_IDLE ≠ 0 → (∀ c ∈ s.cmds 1, c.core ≠ s.holder) →
      ∃ t, exec .cipLockIdle s = .next t ∧ t.lockHeld = false ∧ t.flag F.CIP_STAT.LOCK_FORCED = true ∧
        t.lockEnd = none ∧ OnlyRegs [0xA00004, 0xA00008, 0xA0000C] s { t with lockEnd := s.lockEnd }) ∧
    (s.fld F.CIP_CTL.LOCK_IDLE = 0 → exec .cipLockIdle s = .next s) ∧
    (s.lockHeld = true → ∃ t, exec .cipLockFree s = .next t ∧ t.lockHeld = false ∧ t.flag F.CIP_STAT.LOCK_FORCED = true ∧
      t.cmds 1 = (s.cmds 1).filter (fun c => c.core != s.holder) ∧ t.held = s.held ++ ends (fun c => c.core == s.holder)) ∧
    (s.lockHeld = false → exec .cipLockFree s = .next s) ∧
    (∃ t, exec .cipRunStop s = .next t ∧ t.lockHeld = false ∧ t.flag F.CIP_CTL.RUN = false ∧ t.cmds 1 = [] ∧
      t.held = s.held ++ ends (fun _ => true) ∧ OnlyRegs [0xA00000, 0xA00004, 0xA0000C] s
        { t with held := s.held, accepted := s.accepted, lockEnd := s.lockEnd })

/-- R359 to R361, R470: IMPORT of a blob that unwraps and passes its checks, ERASE of a slot that nothing holds, and ATTEST; with the
refusals of a slot in use and of a blob that does not unwrap. -/
def Sys2Proof.Claims.KeyForms : Prop :=
  ∀ (i : Nat) (c : Cmd) (s : State),
    let slot := dArg c.desc % 128
    let n := dC c.desc
    let u := s.start c
    let r := u.taRead (dA c.desc) n
    (Starts s 7 i 1 c → slot < 64 ∨ slot = 65 → n = 40 ∨ n = 48 ∨ n = 56 → s.engCheck c (dA c.desc) n = none → r.2.2 = false →
      r.1.flag F.KEY_ALARM.ALARM = false → (r.1.key (if slot = 65 then 64 else 65)).valid = true →
      (Aes.unwrap (r.1.key (if slot = 65 then 64 else 65)).bytes r.2.1 = none → ∃ t, exec (.keyImport i) s = .next t ∧
        t.keys = r.1.keys ∧ t.held = r.1.held ++ [⟨completionItem 7 1 false 0x0033 0 0 (dTag c.desc), c⟩]) ∧
      (∀ p, Aes.unwrap (r.1.key (if slot = 65 then 64 else 65)).bytes r.2.1 = some p → r.1.plainOk slot p = true →
        r.1.slotHeld slot = false → ∃ t, exec (.keyImport i) s = .next t ∧
          (t.key slot).valid = true ∧ (t.key slot).tkid = BitVec.ofNat 64 (natAt p 0 8) ∧ (t.key slot).ksize = natAt p 8 1 ∧
          (t.key slot).enc = (natAt p 9 1).testBit 0 ∧ (t.key slot).dec = (natAt p 9 1).testBit 1 ∧
          (t.key slot).key = BitVec.ofNat 256 (leNat (p.drop 16)) ∧ (∀ k, k ≠ slot → t.key k = r.1.key k) ∧
          t.held = r.1.held ++ [⟨completionItem 7 1 false 0 0 0 (dTag c.desc), c⟩])) ∧
    (Starts s 7 i 2 c → slot < 64 ∨ slot = 65 →
      (s.slotHeld slot = false → ∃ t, exec (.erase i) s = .next t ∧ t.key slot = {} ∧ (∀ k, k ≠ slot → t.key k = s.key k) ∧
        Ended s t c 0 0 0 false ∧ t = { s with keys := t.keys, held := t.held, accepted := t.accepted }) ∧
      (s.slotHeld slot = true → ∃ t, exec (.erase i) s = .next t ∧ t.keys = s.keys ∧ Ended s t c 0x0031 0 0 false)) ∧
    (Starts s 7 i 2 c → ¬(slot < 64 ∨ slot = 65) → exec (.erase i) s = .next (u.finish c 0x0010)) ∧
    (Starts s 7 i 3 c → 16 ≤ n → n ≤ 64 → s.engCheck c (dA c.desc) n = none → s.engCheckW c (dB c.desc) 0 = none →
      taOff (dB c.desc) + 1724 ≤ classSize (hClass (taHandle (dB c.desc))) → (s.fld F.BOOT_STAT.DONE).testBit 3 = true →
      r.2.2 = false →
      let body := r.1.attestBody r.2.1
      exec (.attest i) s =
        .next ((r.1.taWrite (dB c.desc) (body ++ bytesAt (Config.falconSign body) 0 1280) false).finish c 0 0 1724) ∧
      body.length = 444 ∧ natAt body 0 4 = 0x54535441)

/-- R362 to R365: the first alarm of an enabled source since a start sets its cause and ALARM, clears every key slot, ends every CIP
command KEY_GONE, with no more blocks as its result than it has and with 0 where none was in progress, frees the lock, and ends KEY_GONE
the IMPORT at the head of KEY's queue; a source that is not enabled does nothing; a later one sets its cause only. SECURE enables
every source, and an enable write sets the four bits. -/
def Sys2Proof.Claims.KeyAlarms : Prop :=
  ∀ (src : AlarmSource) (bits : BitVec 4) (s : State), s.canonical = true → s.inRun = true → (∀ c ∈ s.cmds 1, c.target = 1) →
    (∀ c ∈ s.cmds 7, c.target = 7) →
    let struck : List Held := match s.cmds 7 with
      | [] => []
      | c :: _ =>
        if descOk 7 c.desc = true ∧ dCode c.desc = 1 ∧ s.fenceOpen c = true then
          [⟨completionItem 7 1 false 0x0032 0 0 (dTag c.desc), c⟩]
        else []
    let fired (t : State) : Prop := t.flag F.KEY_ALARM.ALARM = true ∧ t.flag (sourceCause src) = true ∧ t.keys = [] ∧
      t.cmds 1 = [] ∧ t.cmds 7 = (s.cmds 7).drop struck.length ∧ t.lockHeld = false ∧ (∀ h ∈ struck, h ∈ t.held) ∧
      (∀ c ∈ s.cmds 1, ∃ mark k, k ≤ dC c.desc ∧ ⟨completionItem 1 (dCode c.desc) mark 0x0032 0 k (dTag c.desc), c⟩ ∈ t.held) ∧
      ((∀ c ∈ s.cmds 1, s.cipTurn c = false) → (s.flag F.UMP_CTL.RUN = false → t.mem = s.mem) ∧
        t.held = (s.held ++ (s.cmds 1).map fun c => ⟨completionItem 1 (dCode c.desc) false 0x0032 0 0 (dTag c.desc), c⟩) ++ struck)
    (s.flag (sourceEnable src) = true → s.flag F.KEY_ALARM.ALARM = false → ∃ t, exec (.keyAlarm src) s = .next t ∧ fired t) ∧
    (s.flag (sourceEnable src) = false → s.flag F.KEY_CTL.SECURE = false → exec (.keyAlarm src) s = .next s) ∧
    (s.flag (sourceEnable src) = true → s.flag F.KEY_ALARM.ALARM = true → ∃ t, exec (.keyAlarm src) s = .next t ∧
      t.flag (sourceCause src) = true ∧ OnlyRegs [0xA01004] s t) ∧
    (∃ t, exec (.secure []) s = .next t ∧ t.flag F.KEY_CTL.SECURE = true ∧ OnlyRegs [0xA01000] s t) ∧
    (s.flag F.KEY_ALARM.ALARM = false → ∃ t, exec (.secure [src]) s = .next t ∧ t.flag F.KEY_CTL.SECURE = true ∧ fired t) ∧
    (∃ t, exec (.alarmEnableWrite bits []) s = .next t ∧ OnlyRegs [0xA01000] s t ∧
      t.fld F.KEY_CTL.VOLT_EN = (bits.getLsbD 0).toNat ∧ t.fld F.KEY_CTL.CLK_EN = (bits.getLsbD 1).toNat ∧
      t.fld F.KEY_CTL.TEMP_EN = (bits.getLsbD 2).toNat ∧ t.fld F.KEY_CTL.TAMPER_EN = (bits.getLsbD 3).toNat ∧
      t.fld F.KEY_CTL.SECURE = s.fld F.KEY_CTL.SECURE)

/-- R358 to R365: the key store.
The model's own readings in it: log entry 11 (DEDUCED), log entry 16 (DEDUCED), log entry 69 (DEDUCED). -/
def Obligations.KeyStoreEffects : Prop := KeyForms ∧ KeyAlarms

/-- R233, R235, R238, R239 to R244: the commands of a compression lane. COMPRESS of a bundle the lane coded well writes header and
body where they gain enough and NO_GAIN otherwise, the input enters the history either way, and the same context and input give the
same body from then on; DECOMPRESS writes what the bundle decodes to, or zeros with BAD_PARAM and the reason; CTX_INIT gives its slot
the empty context; CTX_SAVE unbinds it, or ends with the status of a handle that fails.
The model's own readings in it: log entry 34 (DEDUCED). -/
def Obligations.CompressionCommands : Prop :=
  ∀ (lane : Fin 8) (given : List Byte) (c : Cmd) (s : State), s.canonical = true → c.badOwner = false →
    let n := dC c.desc
    let u := s.start c
    (∀ x y : State, ∀ input, s.laneReady lane 1 = some c → 0 < n → n ≤ 65536 → n + 5 ≤ dD c.desc →
      s.engCheck c (dA c.desc) n = none → s.engCheckW c (dB c.desc) (dD c.desc) = none →
      u.bundleCtx c lane false = (x, none) → x.taRead (dA c.desc) n = (y, input, false) →
      let ctx := (y.lane lane).ctx
      let body := y.laneBody ctx input given
      ctx.poisoned = false → y.canonical = true →
      ∀ r, Thatch.body n ctx.view ctx.rep body = .ok r → r.out = input → input.length = n →
        ((100 - Min.min (y.fld F.CMP_CTL.GAIN_PCT) 50) * n ≤ 100 * body.length →
          ∃ t, exec (.compress lane given) s = .next t ∧ (t.lane lane).ctx = ctx.append input ∧ t.mem = y.mem ∧
            (∀ other, t.laneBody ctx input other = body) ∧
            t.fld F.CMP_CNT0.NO_GAIN_CNT = Min.min (y.fld F.CMP_CNT0.NO_GAIN_CNT + 1) 65535 ∧
            t.held = y.held ++ [⟨completionItem c.target (dCode c.desc) false 0x0001 0 0 (dTag c.desc), c⟩]) ∧
        (100 * body.length < (100 - Min.min (y.fld F.CMP_CTL.GAIN_PCT) 50) * n →
          Quiet y (dB c.desc) (Thatch.header n body.length ++ body).length →
          ∃ t, exec (.compress lane given) s = .next t ∧
            Wrote y t (dB c.desc) (Thatch.header n body.length ++ body) false ∧ (∀ other, t.laneBody ctx input other = body) ∧
            ((t.lane lane).ctx).total = ctx.total + n ∧
            t.held = y.held ++ [⟨completionItem c.target (dCode c.desc) false 0 0
              (Thatch.header n body.length ++ body).length (dTag c.desc), c⟩])) ∧
    (∀ x y : State, ∀ b, s.laneReady lane 2 = some c → 0 < n → n ≤ 65542 →
      s.engCheck c (dA c.desc) n = none → s.engCheckW c (dB c.desc) (dD c.desc) = none →
      u.taRead (dA c.desc) n = (x, b, false) → Thatch.origLen b ≤ dD c.desc → x.bundleCtx c lane true = (y, none) →
      let ctx := (y.lane lane).ctx
      ctx.poisoned = false → y.canonical = true →
      (∀ r, Thatch.bundle ctx.view ctx.rep ctx.codeLens b = .ok r → Quiet y (dB c.desc) r.out.length →
        ∃ t, exec (.decompress lane) s = .next t ∧ Wrote y t (dB c.desc) r.out false ∧
          (t.lane lane).ctx = { (ctx.append r.out) with rep := r.rep } ∧
          t.held = y.held ++ [⟨completionItem c.target (dCode c.desc) false 0 0 r.out.length (dTag c.desc), c⟩]) ∧
      (∀ e, Thatch.bundle ctx.view ctx.rep ctx.codeLens b = .error e → Quiet y (dB c.desc) (Thatch.origLen b) →
        ∃ t, exec (.decompress lane) s = .next t ∧ Wrote y t (dB c.desc) (List.replicate (Thatch.origLen b) 0) false ∧
          (t.lane lane).ctx = ctx ∧ t.flag F.CMP_STAT.BAD_BUNDLE = true ∧
          t.held = y.held ++ [⟨completionItem c.target (dCode c.desc) false 0x0010 e 0 (dTag c.desc), c⟩])) ∧
    (s.laneReady lane 3 = some c →
      let w := BitVec.ofNat 32 (natAt c.desc 12 4)
      let v := u.vacate (dArg c.desc % 64) lane
      (hClass w = 3 → s.checkUse w 0 262144 1 none = none → v.2 = none → ∃ t, exec (.ctxInit lane) s = .next t ∧
        (t.lane lane).loaded = some (dArg c.desc % 64) ∧
        (t.lane lane).ctx = { init := true, decomp := (dArg c.desc).testBit 10, window := w } ∧
        t.held = v.1.held ++ [⟨completionItem c.target (dCode c.desc) false 0 0 0 (dTag c.desc), c⟩]) ∧
      (hClass w ≠ 3 → exec (.ctxInit lane) s = .next (u.finish c 0x0010))) ∧
    (s.laneReady lane 4 = some c →
      let v := u.saveLanes (u.lanesHolding (dArg c.desc % 64))
      (v.2 = none → ∃ t, exec (.ctxSave lane) s = .next t ∧
        t.slotLane.get (fun _ => none) (dArg c.desc % 64) = none ∧ (∀ k, k < 8 → (t.lane k).loaded ≠ some (dArg c.desc % 64)) ∧
        t.held = v.1.held ++ [⟨completionItem c.target (dCode c.desc) false 0 0 0 (dTag c.desc), c⟩]) ∧
      (∀ e, v.2 = some e → exec (.ctxSave lane) s = .next (v.1.finish c e)))

/-- R245, R257, R258, R261, R268, R499: starting and stopping CMP, POOL and the queues, and a visit of the scrubber.
The model's own readings in it: log entry 34 (DEDUCED). -/
def Obligations.RunControls : Prop :=
  ∀ (q : QueueId) (s : State), s.canonical = true →
   (s.inRun = true →
    (s.flag F.CMP_CTL.RUN = false → s.ctxBaseOk = true →
      ∃ t, exec .cmpRunStart s = .next t ∧ t.flag F.CMP_CTL.RUN = true ∧ OnlyRegs [0x900000] s t) ∧
    (s.flag F.CMP_CTL.RUN = false → s.ctxBaseOk = false →
      ∃ t, exec .cmpRunStart s = .next t ∧ t.flag F.CMP_CTL.RUN = false ∧ t.flag F.CMP_STAT.CTX_BAD = true ∧
        OnlyRegs [0x900008] s t) ∧
    (∃ t, exec .cmpRunStop s = .next t ∧ t.flag F.CMP_CTL.RUN = false ∧ t.slotLane = [] ∧ t.cmds 0 = [] ∧
      ∀ l, l < 8 → (t.lane l).loaded = none) ∧
    (s.flag F.POOL_CTL.RUN = false → s.poolLegal = true → ∃ t, exec .poolRunStart s = .next t ∧ t.flag F.POOL_CTL.RUN = true ∧
      t.bufs = [] ∧ (∀ k, k < 8 → t.freeList k =
        if s.flag F.POOL_CLASS.EN k then List.range (s.fld F.POOL_COUNT.COUNT k) else []) ∧
      t = { s with regs := t.regs, bufs := t.bufs, free := t.free } ∧ OnlyRegs [0x700000] s { t with bufs := s.bufs, free := s.free }) ∧
    (s.flag F.POOL_CTL.RUN = false → s.poolLegal = false → ∃ t, exec .poolRunStart s = .next t ∧ t.flag F.POOL_CTL.RUN = false ∧
      t.flag F.POOL_STAT.CFG_REFUSED = true ∧ OnlyRegs [0x700008] s t) ∧
    ((∀ e ∈ s.bufs, e.2.owner = 0) → ∃ t, exec .poolRunStop s = .next t ∧ t.flag F.POOL_CTL.RUN = false ∧
      OnlyRegs [0x700000] s t) ∧
    ((∃ e ∈ s.bufs, e.2.owner ≠ 0) → ∃ t, exec .poolRunStop s = .next t ∧ t.flag F.POOL_STAT.IN_USE = true ∧
      t.flag F.POOL_CTL.RUN = s.flag F.POOL_CTL.RUN ∧ OnlyRegs [0x700008] s t) ∧
    (s.flag F.QUE_CFG.EN q = false → s.qLegal q = true → ∃ t, exec (.queueEnable q) s = .next t ∧
      t.flag F.QUE_CFG.EN q = true ∧ t.qCount q = 0 ∧ (∀ r, r ≠ q.val → t.queue r = s.queue r) ∧
      OnlyRegs [0x610000 + 16 * q.val] s { t with queues := s.queues }) ∧
    (s.flag F.QUE_CFG.EN q = false → s.qLegal q = false → ∃ t, exec (.queueEnable q) s = .next t ∧
      t.flag F.QUE_CFG.EN q = false ∧ t.flag F.QUE_GSTAT.CFG_REFUSED = true ∧ t.fld F.QUE_GSTAT.LAST_Q = q.val ∧
      OnlyRegs [0x600000] s t) ∧
    (∃ t, exec (.queueDisable q) s = .next t ∧ t.flag F.QUE_CFG.EN q = false ∧ t.qCount q = 0 ∧ (t.queue q).above = false ∧
      ∀ r, r ≠ q.val → t.queue r = s.queue r)) ∧
    (∀ k, s.flag F.TIL_CTL.SCRUB_EN = true → s.fld F.PWR_STAT.STATE ≤ 1 → s.nextScrub s.scrubAt = some k →
      (s.verifyTile k).2 ≠ .uncorrectable → exec .scrubVisit s =
        .next { (s.verifyTile k).1 with scrubAt := k + 1, scrubCount := (s.verifyTile k).1.scrubCount + 1 }) ∧
    (s.nextScrub s.scrubAt = none → s.nextScrub 256 = none → s.flag F.TIL_CTL.SCRUB_EN = true → s.fld F.PWR_STAT.STATE ≤ 1 →
      ∃ t, exec .scrubVisit s = .next t ∧ t.scrubAt = 256 ∧ t.scrubCount = 0 ∧ t.lapStartMs = s.aonMs ∧ t.mem = s.mem) ∧
    (s.flag F.TIL_CTL.SCRUB_EN = false ∨ 1 < s.fld F.PWR_STAT.STATE → exec .scrubVisit s = .next s)

/-- R499: a write of 0 to EN of a queue empties it: both pointers, in either copy, are 0, it holds no item, ABOVE is clear and EN 0; an
enable that is allowed then finds it empty. -/
def Obligations.QueueEmptied : Prop :=
  ∀ (q : QueueId) (s : State), s.canonical = true → s.inRun = true → ∃ t, exec (.queueDisable q) s = .next t ∧ t.flag F.QUE_CFG.EN q = false ∧
    (t.queue q).wp = 0 ∧ (t.queue q).rp = 0 ∧ (t.queue q).wp2 = 0 ∧ (t.queue q).rp2 = 0 ∧ (t.queue q).above = false ∧
    t.qCount q = 0 ∧ (∀ r, r ≠ q.val → t.queue r = s.queue r) ∧
    ∀ u : State, u.canonical = true → u.inRun = true → u.queue q = t.queue q → u.flag F.QUE_CFG.EN q = false → u.qLegal q = true →
      ∃ v, exec (.queueEnable q) u = .next v ∧ v.flag F.QUE_CFG.EN q = true ∧ v.qCount q = 0

/-- R249, R253: a full verify of a strong tile. Agreeing checks and no located byte pass; one located byte that P and Q agree on is
corrected in place; a bad record is uncorrectable and the tile poisoned, with no byte changed, by a verify and by the next use of a
tile of any kind. -/
def Obligations.FullVerify : Prop :=
  ∀ (k : Nat) (s : State), s.canonical = true →
    let r := s.tileRec k
    let loc := s.locatedIn k 0 4096
    (r.recBad = false → loc = [] → r.crcDiff = 0 →
      s.verifyTile k = (s.setTileRec k { r with verified := true }, .pass)) ∧
    (∀ i, r.recBad = false → loc = [i] → r.qDiff = gfMul (gfPow i) r.pDiff → r.crcDiff = crcLin r.pDiff i →
      ∃ t, s.verifyTile k = (t, .corrected) ∧ t.memByte (4096 * k + i) = s.memByte (4096 * k + i) ^^^ r.pDiff ∧
        (∀ a, a ≠ 4096 * k + i → t.memByte a = s.memByte a) ∧ t.flag F.TIL_STAT.CORRECTED = true ∧
        (t.tileRec k).verified = true ∧ (t.tileRec k).pDiff = 0 ∧ (t.tileRec k).crcDiff = 0 ∧ (t.tileRec k).poison = r.poison ∧
        (t.tileRec k).corr = Min.min (r.corr + 1) 255) ∧
    (r.recBad = true ∨ (loc = [] ∧ r.crcDiff ≠ 0) → ∃ t, s.verifyTile k = (t, .uncorrectable) ∧ t.mem = s.mem ∧
      (t.tileRec k).poison = true ∧ t.flag F.TIL_STAT.POISONED = true ∧
      t.fld F.TIL_CNT.POIS_CNT = Min.min (s.fld F.TIL_CNT.POIS_CNT + 1) 65535) ∧
    (∀ o n, r.recBad = true → r.poison = false → 0 < n → ∃ t, s.tileUse k o n = (t, true) ∧ t.mem = s.mem ∧
      (t.tileRec k).poison = true)

/-- R272, R322, R327: a held completion item enters its queue once that is enabled and has room, and the buffers its command took are the
stream cores' again; the program set then gets it (R337), unless an equal item is still held. With no room it stays held; a queue whose pointer copies differ is emptied first, full or not. The item holds the fields of R327 at their places. -/
def Obligations.CompletionPut : Prop :=
  (∀ (i : Nat) (h : Held) (s : State), s.canonical = true → s.clocked = true → s.held[i]? = some h →
    let q := h.cmd.cq
    let got (t : State) : State := if h ∈ s.held.erase h then t else ((t.gets h).commitNext).postAll
    (s.flag F.QUE_CFG.EN q = true → s.qCount q < s.qDepth q → (s.queue q).wp = (s.queue q).wp2 →
      (s.queue q).rp = (s.queue q).rp2 → ∃ t, exec (.completionPut i) s = .next (got t) ∧ t.held = s.held.erase h ∧
        t.items.get (fun _ => 0) (s.qSlot q (s.queue q).wp) = h.item &&& BitVec.ofNat 128 (2 ^ 127 - 1) ∧
        (t.queue q).wp = ((s.queue q).wp + 1) % (2 * s.qDepth q) ∧ (t.queue q).rp = (s.queue q).rp ∧
        (∀ g ∈ h.cmd.taken, (t.bufOf g).owner = 0x01) ∧ t.mem = s.mem ∧ t.accepted = s.accepted ∧
        t = { s with regs := t.regs, held := t.held, items := t.items, queues := t.queues, cores := t.cores, bufs := t.bufs }) ∧
    (s.flag F.QUE_CFG.EN q = false ∨
      (s.qDepth q ≤ s.qCount q ∧ (s.queue q).wp = (s.queue q).wp2 ∧ (s.queue q).rp = (s.queue q).rp2) →
      exec (.completionPut i) s = .next s) ∧
    (s.flag F.QUE_CFG.EN q = true → (s.queue q).wp ≠ (s.queue q).wp2 ∨ (s.queue q).rp ≠ (s.queue q).rp2 →
      ∃ t, exec (.completionPut i) s = .next (got t) ∧ t.held = s.held.erase h ∧ t.qCount q = 1)) ∧
  ∀ (target code detail result tag : Nat) (mark : Bool) (st : W16), target < 256 → code < 256 → detail < 65536 →
    result < 2 ^ 32 → tag < 2 ^ 31 →
    let x := completionItem target code mark st detail result tag
    x.extractLsb' 0 8 = 1 ∧ (x.extractLsb' 8 8).toNat = target ∧ (x.extractLsb' 16 8).toNat = code ∧
      x.extractLsb' 24 8 = (if mark then 1 else 0) ∧ x.extractLsb' 32 16 = st ∧ (x.extractLsb' 48 16).toNat = detail ∧
      (x.extractLsb' 64 32).toNat = result ∧ (x.extractLsb' 96 31).toNat = tag ∧ x.getLsbD 127 = false

/-! ## Host port -/

namespace Sys2Proof.Claims

/-- What the statements ask of the sparse parts that lie inside units: the queue pairs, the streams, configuration space, the boot flash and its
buffer, and the channels, latches, link scramblers and ports of WRC, SRV and MOT are in canonical form. -/
def Orderly (s : State) : Prop :=
  SMap.wf (fun _ => ({} : QPair)) s.hst.pairs = true ∧ SMap.wf (fun _ => ({} : Stream)) s.hst.streams = true ∧
    SMap.wf flashDefault s.boot.flash = true ∧ SMap.wf flBufDefault s.boot.flBuf = true ∧
    SMap.wf (fun _ => ({} : WChan)) s.wrc.chans = true ∧ SMap.wf cfgDefault s.hst.config = true ∧
    (∀ e ∈ s.wrc.chans, e.1 < 64) ∧ SMap.wf (fun _ => (0 : W32)) s.wrc.iwLatch = true ∧
    SMap.wf (fun _ => (0 : W32)) s.wrc.pcLatch = true ∧ SMap.wf (fun _ => (0 : Nat)) s.wrc.statTries = true ∧
    SMap.wf (fun _ => ({} : SrvChan)) s.mot.srv = true ∧ SMap.wf (fun _ => (0 : Rat)) s.mot.live = true ∧
    SMap.wf (fun _ => (0 : W16)) s.mot.codes = true ∧ SMap.wf (fun _ => (0 : BitVec 58)) s.wrc.scram = true

/-- Every command in an engine's queue was accepted for that engine. -/
def OnTarget (s : State) : Prop := ∀ t, ∀ c ∈ s.cmds t, c.target = t

/-- A completion entry stands at the tail of pair `p` of function `f` with these fields (R380), and the tail has moved on. -/
def EntryOut (s : State) (f p : Nat) (e : List Byte) (result sq head cid status detail : Nat) : Prop :=
  e.length = 16 ∧ natAt e 0 4 = result ∧ natAt e 4 2 = head ∧ natAt e 6 2 = sq ∧ natAt e 8 2 = cid ∧ natAt e 10 2 = status ∧
    natAt e 12 2 = detail ∧ natAt e 15 1 % 2 = (s.pair f p).phase.toNat

/-- A served work item whose entry has room at once: no entry, COMPLETE or DELIVER stands before it. -/
def ItemReady (s : State) (w : WorkItem) : Prop :=
  s.served w = true ∧ s.hst.waiting = [] ∧ (∀ k, s.entryWaits w.fn w.pair k = false) ∧ (s.pair w.fn w.pair).sqHead < 65536

/-- What leaves for the host's memory when these bytes are written there: in pieces of the max payload size, each within 4 KiB. -/
def hostOuts (s : State) (f : FnId) (a : Nat) (l : List Byte) : List Out :=
  (piecesOf (s.maxPayload f) a l.length).map fun e => .hostWrite f e.1 (bytesAt l (e.1 - a) e.2) (s.relaxed f)

/-- After the emissions `before`, the completion entry of the work item goes to its CQ. -/
def ItemEnds (s t : State) (w : WorkItem) (before : List Out) (status : W16) (result : Nat) : Prop :=
  ∃ e, t.out = s.out ++ before ++
      [.hostWrite w.fn (s.cqBase w.fn w.pair + 16 * (s.pair w.fn w.pair).cqTail) e false] ∧
    EntryOut s w.fn w.pair e result w.pair.val (s.pair w.fn w.pair).sqHead w.cid.toNat status.toNat 0 ∧
    t.hst.waiting = [] ∧ (t.pair w.fn w.pair).cqTail = ((s.pair w.fn w.pair).cqTail + 1) % s.cqDepth w.fn w.pair

/-- R255, R382: FETCH. Read requests leave for the range; the bytes that the host's memory returned go to tiles, TLP by TLP, each with
its own mark; the result is their CRC-32C. A poisoned TLP and a failed read are logged by AER. -/
def FetchForms : Prop :=
  ∀ (i : Nat) (c : Cmd) (l k : List Byte) (m m' : Bool) (e : ReadError) (s : State), Starts s 4 i 1 c →
    let n := dC c.desc
    let f := dArg c.desc % 16
    let u := s.start c
    let v := u.hostReads f (dA c.desc).toNat n
    (n = 0 → ∀ r, exec (.fetch i r) s = .next (u.finish c 0)) ∧
    (n ≠ 0 → s.dmaReady f = false → ∀ r, exec (.fetch i r) s = .next (u.finish c 0x0003)) ∧
    (∀ st r, n ≠ 0 → s.dmaReady f = true → s.engCheckW c (dB c.desc) n = some st → exec (.fetch i r) s = .next (u.finish c st)) ∧
    (n ≠ 0 → s.dmaReady f = true → s.engCheckW c (dB c.desc) n = none → Orderly s →
      exec (.fetch i (.error e)) s = .next ((v.aerLog f (aerBit e)).finish c 0x0010) ∧
      v.out = s.out ++ (piecesOf (s.maxRead f) (dA c.desc).toNat n).map (fun p => .hostRead f p.1 p.2) ∧
      (l.length < n → exec (.fetch i (.data [(l, m)])) s = .next ((v.aerLog f 14).finish c 0x0010)) ∧
      (Quiet s (dB c.desc) n →
        (l.length = n → ∃ t, exec (.fetch i (.data [(l, m)])) s = .next t ∧ Wrote s t (dB c.desc) l m ∧
          Ended s t c (if m then 0x0020 else 0) 0 (crc32c l).toNat m ∧ (t.cfg f 0x104).getLsbD 12 = ((s.cfg f 0x104).getLsbD 12 || m)) ∧
        (l ≠ [] → k ≠ [] → l.length + k.length = n → ∃ t, exec (.fetch i (.data [(l, m), (k, m')])) s = .next t ∧
          Wrote s t (dB c.desc) (l ++ k) (m || m') ∧
          Ended s t c (if m || m' then 0x0020 else 0) 0 (crc32c (l ++ k)).toNat (m || m'))))

/-- R255, R324, R356, R382: DELIVER. -/
def DeliverForms : Prop :=
  ∀ (i : Nat) (c : Cmd) (s : State), Starts s 4 i 2 c →
    let n := dC c.desc
    let f := dArg c.desc % 16
    let u := s.start c
    let r := u.taRead (dB c.desc) n
    let a := (dA c.desc).toNat
    (n = 0 → exec (.deliver i) s = .next (u.finish c 0)) ∧
    (n ≠ 0 → s.dmaReady f = false → exec (.deliver i) s = .next (u.finish c 0x0003)) ∧
    (∀ st, n ≠ 0 → s.dmaReady f = true → s.engCheck c (dB c.desc) n = some st → exec (.deliver i) s = .next (u.finish c st)) ∧
    (n ≠ 0 → s.dmaReady f = true → s.engCheck c (dB c.desc) n = none →
      ((s.bufOf (taHandle (dB c.desc))).provisional = true → exec (.deliver i) s = .next (u.finish c 0x0003)) ∧
      ((s.bufOf (taHandle (dB c.desc))).provisional = false →
        (r.2.2 = true → exec (.deliver i) s = .next (r.1.finish c 0x0020)) ∧
        (r.2.2 = false → (dArg c.desc).testBit 4 = true → (crc32c r.2.1).toNat ≠ dD c.desc →
          exec (.deliver i) s = .next (r.1.finish c 0x0021)) ∧
        (r.2.2 = false → (dArg c.desc).testBit 4 = false ∨ (crc32c r.2.1).toNat = dD c.desc →
          exec (.deliver i) s = .next ((r.1.hostWrites f a r.2.1).finish c 0 0 n) ∧
          (0 < r.2.1.length → r.2.1.length ≤ r.1.maxPayload f → a % 4096 + r.2.1.length ≤ 4096 →
            r.1.hostWrites f a r.2.1 = r.1.emit (.hostWrite f a r.2.1 (r.1.relaxed f))))))

/-- R380: COMPLETE writes its entry with the SQ head and the phase put in, waits while R380 has it wait, or ends BAD_PARAM. -/
def CompleteForms : Prop :=
  ∀ (i : Nat) (c : Cmd) (s : State), Starts s 4 i 3 c →
    let n := dC c.desc
    let f := dArg c.desc % 16
    let b := leBytes 8 (dA c.desc).toNat ++ leBytes 8 (dB c.desc).toNat
    (15 < n ∨ s.pairEn f n = false ∨ s.fnActive f = false ∨ 15 < natAt b 6 2 →
      exec (.complete i) s = .next ((s.start c).finish c 0x0010)) ∧
    (n < 16 → s.pairEn f n = true → s.fnActive f = true → natAt b 6 2 < 16 →
      (s.completeWaits c = true → exec (.complete i) s = .next s) ∧
      (Orderly s → (s.pair f (natAt b 6 2)).sqHead < 65536 → s.completeWaits c = false →
        ∃ t e, exec (.complete i) s = .next t ∧ Ended s t c 0 0 0 false ∧
          t.out = s.out ++ [.hostWrite f (s.cqBase f n + 16 * (s.pair f n).cqTail) e false] ∧
          EntryOut s f n e (natAt b 0 4) (natAt b 6 2) (s.pair f (natAt b 6 2)).sqHead (natAt b 8 2) (natAt b 10 2) (natAt b 12 2) ∧
          (t.pair f n).cqTail = ((s.pair f n).cqTail + 1) % s.cqDepth f n))

end Sys2Proof.Claims

/-- R255, R324, R356, R380 to R382: FETCH writes what the host's memory returned, with its CRC-32C as result; DELIVER writes the bytes of a
buffer to the host unless they are marked, provisional or fail the check asked for; COMPLETE writes its entry with the SQ head and
the phase put in.
The model's own readings in it: log entry 17 (DEDUCED), log entry 27 (PRESUMED). -/
def Obligations.HostDma : Prop := FetchForms ∧ DeliverForms ∧ CompleteForms

/-- R374 to R376, R381: the doorbells move a pointer within its bounds and set DB_ERR otherwise; an enable of a legal pair; HST's turn goes
round the pairs that have items, and a batch that it passes on stands in its buffer with its notice; the message of a pair goes out
when enough entries wait for it, or its time limit has passed, and stays pending where its vector may not send.
The model's own readings in it: log entry 24 (DEDUCED), log entry 27 (PRESUMED), log entry 28 (DEDUCED). -/
def Obligations.HostQueues : Prop :=
  ∀ (fn pair : FnId) (v : W16) (items : List (List Byte)) (s : State), s.canonical = true → s.inRun = true → Orderly s →
    let f := fn.val
    let p := pair.val
    let q := s.pair f p
    let d := s.sqDepth f p
    let e := s.cqDepth f p
    let nq := s.fld F.HST_FN.NQ f
    let vec := s.fld F.HST_QCFG.VEC (16 * f + p)
    let bad (i : Instr) : Prop := ∃ t, exec i s = .next t ∧ t.flag F.HST_STAT.DB_ERR = true ∧ OnlyRegs [0x300004] s t
    (s.pairEn f p = true → v.toNat < d → (v.toNat + d - q.sqTail) % d + s.sqItems f p < d →
      ∃ t, exec (.sqDoorbell fn pair v) s = .next t ∧ t.pair f p = { q with sqTail := v.toNat } ∧
        (∀ g k, k < 16 → (g, k) ≠ (f, p) → t.pair g k = s.pair g k) ∧ t = { s with hst := { s.hst with pairs := t.hst.pairs } }) ∧
    (s.pairEn f p = false ∨ d ≤ v.toNat ∨ d ≤ (v.toNat + d - q.sqTail) % d + s.sqItems f p → bad (.sqDoorbell fn pair v)) ∧
    (s.hst.waiting = [] → s.pairEn f p = true → v.toNat < e → (v.toNat + e - q.cqHead) % e ≤ s.cqItems f p →
      ∃ t, exec (.cqDoorbell fn pair v) s = .next t ∧ t.pair f p = { q with cqHead := v.toNat } ∧ t.out = s.out) ∧
    (s.hst.waiting = [] → s.pairEn f p = false ∨ e ≤ v.toNat ∨ s.cqItems f p < (v.toNat + e - q.cqHead) % e →
      bad (.cqDoorbell fn pair v)) ∧
    (s.pairEn f p = false → (∀ k ∈ [s.fld F.HST_QCFG.SQ_LOG (16 * f + p), s.fld F.HST_QCFG.CQ_LOG (16 * f + p)], 4 ≤ k ∧ k ≤ 16) →
      ∃ t, exec (.queuePairEnable fn pair) s = .next t ∧ t.pairEn f p = true ∧ t.pair f p = {}) ∧
    (s.pairEn f p = false → (∃ k ∈ [s.fld F.HST_QCFG.SQ_LOG (16 * f + p), s.fld F.HST_QCFG.CQ_LOG (16 * f + p)], k < 4 ∨ 16 < k) →
      ∃ t, exec (.queuePairEnable fn pair) s = .next t ∧ t.pairEn f p = false ∧ t.flag F.HST_STAT.CFG_REFUSED = true) ∧
    (s.hst.turn < 256 → ∀ k, k < 256 → (s.fetchTurn = some k ↔
      s.fetchable k = true ∧ ∀ j, j < (k + 256 - s.hst.turn) % 256 → s.fetchable ((s.hst.turn + j) % 256) = false)) ∧
    ((s.queue nq).wp = (s.queue nq).wp2 → (s.queue nq).rp = (s.queue nq).rp2 →
      (s.fetchTurn ≠ some (16 * f + p) → exec (.workBatchFetch fn pair items) s = .next s) ∧
      (s.fetchTurn = some (16 * f + p) → s.batchAllowed f p items = true →
        (∀ x h, s.alloc (s.fld F.HST_CTL.WI_CLASS) 0x01 20 = (x, some h) →
          (∀ b ∈ items, itemCheck b = none ∧ b.length = 64) → Quiet x (mkTa h 0) (64 * items.length) →
          ∃ t, exec (.workBatchFetch fn pair items) s = .next t ∧ Wrote x t (mkTa h 0) items.flatten false ∧
            (t.pair f p).sqHead = (q.sqHead + items.length) % d ∧ (t.pair f p).sqTail = q.sqTail ∧ t.out = s.out ∧
            t.hst.turn = (16 * f + p + 1) % 256 ∧
            (t.queue nq).wp = ((s.queue nq).wp + 1) % (2 * s.qDepth nq) ∧
            t.items.get (fun _ => 0) (s.qSlot nq (s.queue nq).wp) =
              noticeItem f p items.length h q.sqHead &&& BitVec.ofNat 128 (2 ^ 127 - 1)) ∧
        (∀ x, s.alloc (s.fld F.HST_CTL.WI_CLASS) 0x01 20 = (x, none) →
          exec (.workBatchFetch fn pair items) s = .next ((x.raise F.HST_STAT.WI_EMPTY).turnTo (16 * (f + 1)))))) ∧
    (0 < q.unsignalled → Max.max 1 (s.fld F.HST_QCOAL.COAL_CNT (16 * f + p)) ≤ q.unsignalled ∨ s.fld F.HST_QCOAL.COAL_US (16 * f + p) ≠ 0 →
      ∃ t, exec (.msixMessage fn pair) s = .next t ∧ t.pair f p = { q with unsignalled := 0 } ∧
        (s.msixSends f vec = true → t.out = s.out ++ [.msix fn vec]) ∧
        (s.msixSends f vec = false → t.out = s.out ∧ t.hst.pba.contains (8 * f + vec) = true)) ∧
    (q.unsignalled = 0 ∨ (q.unsignalled < s.fld F.HST_QCOAL.COAL_CNT (16 * f + p) ∧ s.fld F.HST_QCOAL.COAL_US (16 * f + p) = 0) →
      exec (.msixMessage fn pair) s = .next s)

/-- R368, R372, R383, R385 to R387, R500: resets of the port and of a function, what HST accepts after a PERST_N, the link, the stop of
HST, and the debug aperture.
The model's own readings in it: log entry 18 (DEDUCED), log entry 19 (DEDUCED), log entry 24 (DEDUCED). -/
def Obligations.HostResets : Prop :=
  ∀ (fn : FnId) (speed width addr len : Nat) (l : List Byte) (s : State), s.canonical = true → OnTarget s → Orderly s →
    (s.inRun = true → s.fnActive fn = true → ∃ t, exec (.functionLevelReset fn) s = .next t ∧ t.flag F.HST_STAT.FLR_SEEN = true ∧
      (∀ p, p < 16 → t.pairEn fn p = false ∧ t.pair fn p = {}) ∧ t.busMaster fn = false ∧
      (∀ w ∈ t.hst.waiting, w.fn ≠ fn.val) ∧ (∀ c ∈ t.cmds 4, dArg c.desc % 16 ≠ fn.val) ∧
      (fn ≠ 0 → t.cmds 4 = (s.cmds 4).filter fun c => dArg c.desc % 16 != fn.val)) ∧
    (s.inRun = true → s.fnActive fn = false → exec (.functionLevelReset fn) s = .next s) ∧
    (∃ t, exec .perstN s = .next t ∧ t.hst.perstHigh = false ∧ t.hst.pcieUp = false ∧ t.hst.afterPerst = true ∧
      t.hst.pairs = [] ∧ t.hst.config = [] ∧ t.cmds 4 = [] ∧
      ∀ a, 0x300000 ≤ a → a < 0x400000 → t.reg a = resetOf a) ∧
    (∀ (core cq : Nat) (d : List Byte), s.hst.afterPerst = true → descOk 4 d = true → (s.accept core 4 d cq).cmds 4 = s.cmds 4 ∧
      ∃ c : Cmd, c.desc = d ∧ c.cq = cq ∧
        (s.accept core 4 d cq).held = s.held ++ [⟨completionItem 4 (dCode d) false 0x0003 0 0 (dTag d), c⟩]) ∧
    (∃ t, exec .perstNRising s = .next t ∧ t.hst.perstHigh = true ∧
      (s.pwr.trans = .none → s.fld F.PWR_STAT.STATE = 0 → s.fld F.PWR_STAT.LATCHED = 0 → s.stepDone 3 = false →
        t = { s with hst := { s.hst with perstHigh := true } })) ∧
    (s.inRun = true → ∃ t, exec .hstRunStop s = .next t ∧ t.flag F.HST_CTL.RUN = false ∧ OnlyRegs [0x300000] s t) ∧
    (s.hst.perstHigh = true → s.stepBegun 4 = true → s.altApplied 4 = false → 1 ≤ speed → speed ≤ 5 → width ∈ [1, 2, 4, 8] →
      ∃ t, exec (.pcieLinkUp speed width) s = .next t ∧ t.flag F.HST_STAT.LINK_UP = true ∧ t.fld F.HST_STAT.SPEED = speed ∧
        t.fld F.HST_STAT.WIDTH = width ∧ t.hst.pcieUp = true ∧ t.hst.afterPerst = false ∧ t.pwr.peWake = false ∧
        ∀ a, a ≠ 0x300004 → t.reg a = s.reg a) ∧
    (∃ t, exec .pcieLinkDown s = .next t ∧ t.flag F.HST_STAT.LINK_UP = false ∧ OnlyRegs [0x300004] s t) ∧
    (s.inRun = true → s.flag F.HST_CTL.DBG_EN = false ∨ s.flag F.KEY_CTL.SECURE = true →
      exec (.bar2Access addr len none) s = .next (s.emit (.unsupportedRequest 0 2 addr)) ∧
      exec (.bar2Access addr len (some l)) s = .next (s.emit (.unsupportedRequest 0 2 addr))) ∧
    (s.inRun = true → s.flag F.HST_CTL.DBG_EN = true → s.flag F.KEY_CTL.SECURE = false →
      (s.flag F.TIL_CTL.BUSERR_MODE = false → 4096 * 256 ≤ addr → addr + len ≤ 4096 * s.tileCount →
        ∃ t, exec (.bar2Access addr len none) s = .next t ∧ t.out = s.out ++ [.bar2Data addr (s.memBytes addr len)] ∧
          t.mem = s.mem ∧ t.regs = s.regs) ∧
      (0 < l.length → 4096 * 256 ≤ addr → addr + l.length ≤ 4096 * s.tileCount → addr % 4096 + l.length ≤ 4096 →
        (s.imageTile (addr / 4096) = true → exec (.bar2Access addr len (some l)) s = .next s) ∧
        (s.imageTile (addr / 4096) = false →
          s.strong (addr / 4096) = false ∨ s.locatedIn (addr / 4096) (addr % 4096) l.length = [] →
          ∃ t, exec (.bar2Access addr len (some l)) s = .next t ∧ t.memBytes addr l.length = l ∧
            (∀ b, b < addr / 4096 * 4096 + Min.min (s.tileRec (addr / 4096)).fill (addr % 4096) ∨ addr + l.length ≤ b →
              t.memByte b = s.memByte b) ∧ t.regs = s.regs ∧ t.out = s.out)))

/-! ## Registers -/

namespace Sys2Proof.Claims

/-- What a write of `v` to a listed register with stored word `old` makes of a field by its access code (R3 to R5); a field of command
bits stays. -/
def FieldTakes (s x : State) (a : Nat) (old v hw : W32) (f : Field) : Prop :=
  let new := f.get (x.reg a)
  (f.mask &&& s.commandBits a = f.mask → new = f.get old) ∧
    (f.mask &&& s.commandBits a = 0 →
      (f.acc = .rw → new = f.get v) ∧
      (f.acc = .rws → new = if s.stoppedAt a then f.get v else f.get old) ∧
      (f.acc = .w1c → ∀ k, k < f.width → new.testBit k =
        (((f.get old).testBit k && !(f.get v).testBit k) || ((f.get v).testBit k && (f.get hw).testBit k))) ∧
      (f.acc = .w1s → ∀ k, k < f.width → new.testBit k = ((f.get old).testBit k || (f.get v).testBit k)) ∧
      (f.acc = .ro ∨ f.acc = .wo ∨ f.acc = .rc → new = f.get old))

end Sys2Proof.Claims

/-- R3 to R5, R112, R368, R371: in RUN, from the end of S4, a 4-byte write of a listed register gives every field its value by its
access code: read-write takes the value, read-write-while-stopped only while its function is stopped, else STOPPED_ONLY tells of a
change refused; write-one-to-clear loses the bits written 1 unless their event falls in the same cycle, write-one-to-set gains them,
any other stays; then the register's commands are done. The value is the word written, out-of-range fields at the end of their range
and bits that ignore writes 0 (R110, R120, R275). An access of another length or alignment sets ACC_ERR. A read of any length returns
the bytes addressed and clears the clear-on-read fields of the registers they lie in. Before S4 is done nothing is taken. Every
access of the host completes.
The model's own readings in it: log entry 61 (DEDUCED), log entry 70 (DESIGN CHOICE), log entry 76 (DEDUCED). -/
def Obligations.RegisterAccessByCode : Prop :=
  ∀ (fn : FnId) (bar a len : Nat) (v hw : W32) (s : State), s.canonical = true →
    ((∃ t, exec (.registerWrite fn bar a len v hw) s = .next t) ∧ ∃ t, exec (.registerReadClear fn bar a len hw) s = .next t) ∧
    (s.inRun = true → s.stepDone 4 = false ∨ s.fnActive fn = false →
      exec (.registerWrite fn bar a len v hw) s = .next s ∧ exec (.registerReadClear fn bar a len hw) s = .next s) ∧
    (2 < s.fld F.PWR_STAT.STATE →
      exec (.registerWrite fn bar a len v hw) s = .next s ∧ exec (.registerReadClear fn bar a len hw) s = .next s) ∧
    (s.inRun = true → s.stepDone 4 = true → s.fnActive fn = true →
      (bar ≠ 6 → len ≠ 4 ∨ a % 4 ≠ 0 → ∃ t, exec (.registerWrite fn bar a len v hw) s = .next t ∧ t.flag F.HST_STAT.ACC_ERR = true ∧
        OnlyRegs [0x300004] s t) ∧
      (bar ≠ 6 → len = 4 → a % 4 = 0 → exec (.registerWrite fn bar a len v hw) s = .next (s.barWrite fn bar a v hw)) ∧
      (a % 4 = 0 → a < 0x1100000 → pfOffset a = a →
        (∀ r, regAt a = some r → s.writeHeld a = false →
          let old := s.taken a (s.reg a)
          let w := s.taken a v
          let refused := s.stoppedAt a = false ∧ ∃ f ∈ r.fields, f.acc = .rws ∧ f.get old ≠ f.get w
          ∃ x, s.barWrite 0 0 a v hw = x.regHook a old w ∧ x = { s with regs := x.regs } ∧
            (∀ f ∈ r.fields, f ≠ (stoppedField a).1 → FieldTakes s x a old w hw f) ∧
            (refused → x.flag (stoppedField a).1 (stoppedField a).2 = true) ∧
            (∀ b, b ≠ a → b ≠ (stoppedField a).1.addr (stoppedField a).2 ∨ ¬refused → x.reg b = s.reg b)) ∧
        (regAt a = none → s.writeHeld a = false → s.barWrite 0 0 a v hw = s.windowStore a v) ∧
        (s.writeHeld a = true → s.barWrite 0 0 a v hw = s.stoppedOnly a)) ∧
      (bar = 6 → a < 4096 → a % 4 + len ≤ 4 → exec (.registerWrite fn bar a len v hw) s =
        .next (s.cfgWrite fn (a / 4 * 4) (mergeBytes (s.cfg fn (a / 4 * 4)) v (a % 4) len) (mergeBytes 0 0xFFFFFFFF (a % 4) len))) ∧
      (bar = 6 → 4096 ≤ a ∨ 4 < a % 4 + len → exec (.registerWrite fn bar a len v hw) s = .next s) ∧
      (∃ t, exec (.registerReadClear fn bar a len hw) s = .next t ∧ t.out = s.out ++ [.readData fn bar a (s.readBytes fn bar a len)] ∧
        t.mem = s.mem ∧ t.cores = s.cores ∧ ∀ b, (∀ k ∈ wordsOf a len, barReg fn bar k ≠ some b) → t.reg b = s.reg b) ∧
      (∀ r, fn = 0 → bar = 0 → len = 4 → a % 4 = 0 → pfOffset a = a → regAt a = some r →
        s.readBytes fn bar a len = leBytes 4 (s.regRead a).toNat ∧
        ∃ t, exec (.registerReadClear fn bar a len hw) s = .next t ∧ ∀ f ∈ r.fields, f.get (t.reg a) =
          (if f.acc = .rc then (if f.get hw = 0 then 0 else 1) else f.get (s.reg a))))

/-! ## Work items of the standard program set -/

namespace Sys2Proof.Claims

/-- R378, R384: each operation meets the work items of its opcode; an item of another standard opcode is not its own, and one whose opcode
is none of theirs ends BAD_PARAM. -/
def WorkItemOpcodes : Prop :=
  ∀ (w : WorkItem) (plans : List CommitPlan) (f : TapeFind) (s : State), s.canonical = true → Orderly s → s.clocked = true →
    let ops : List (Instr × Nat) :=
      [(.identify w, 0x01), (.openStream w, 0x02), (.closeStream w, 0x03), (.commit w plans, 0x04), (.mount w f, 0x05), (.unload w, 0x06),
       (.locate w, 0x07), (.writeRecord w, 0x41), (.importKey w, 0x42), (.readRecord w, 0x81), (.readLog w, 0x82)]
    ∀ i ∈ ops,
      (s.served w = false → exec i.1 s = .next s) ∧
      (ItemReady s w → w.opcode ≠ i.2 → (∃ j ∈ ops, w.opcode = j.2) → exec i.1 s = .next s) ∧
      (ItemReady s w → (∀ j ∈ ops, w.opcode ≠ j.2) → ∃ t, exec i.1 s = .next t ∧ ItemEnds s t w [] 0x0010 0)

/-- R354, R384: IDENTIFY, OPEN_STREAM, CLOSE_STREAM, LOCATE, READ_LOG, MOUNT and UNLOAD. -/
def WorkItemControls : Prop :=
  ∀ (w : WorkItem) (f : TapeFind) (s : State), s.canonical = true → Orderly s → s.clocked = true → ItemReady s w →
    let x := s.stream w
    let n := w.length.toNat
    let size := natAt w.params 20 4
    let cls := natAt w.params 16 4 % 4
    let same := x.orig = 0 ∨ (x.cls.toNat = cls ∧ x.tkid.toNat = natAt w.params 8 8 ∧ x.ivBase.toNat = natAt w.params 0 8)
    let opened (y : Stream) : Prop := y.isOpen = true ∧ y.ivBase.toNat = natAt w.params 0 8 ∧ y.tkid.toNat = natAt w.params 8 8 ∧
      y.cls.toNat = cls ∧ y.apSize.toNat = size ∧ y.written = 0 ∧ y.runNext = true
    let log (l : List Byte) : Prop :=
      (s.busMaster w.fn = true → ∃ t, exec (.readLog w) s = .next t ∧
        ItemEnds s t w (hostOuts s w.fn w.addr.toNat (l.take n)) 0 (Min.min n l.length)) ∧
      (s.busMaster w.fn = false → ∃ t, exec (.readLog w) s = .next t ∧ ItemEnds s t w [] 0x0003 0)
    (w.opcode = 0x01 → ∃ t, exec (.identify w) s = .next t ∧ ItemEnds s t w [] 0 0) ∧
    (w.opcode = 0x02 →
      (size < 65536 ∨ 4194304 < size ∨ cls = 3 → ∃ t, exec (.openStream w) s = .next t ∧ ItemEnds s t w [] 0x0010 0 ∧
        t.hst.streams = s.hst.streams) ∧
      (65536 ≤ size → size ≤ 4194304 → cls ≠ 3 →
        (same → ∃ t, exec (.openStream w) s = .next t ∧ ItemEnds s t w [] 0 0 ∧ opened (t.stream w) ∧
          (t.stream w).segSeq = x.segSeq ∧ (t.stream w).body = x.body ∧ (t.stream w).orig = x.orig) ∧
        (¬same → ∀ g, (s.endSegment w.stream.toNat = (g, none) → ∃ y, opened y ∧ y.orig = 0 ∧
            exec (.openStream w) s = .next ((g.setStream w y).endItem w 0 0)) ∧
          ∀ e, s.endSegment w.stream.toNat = (g, some e) → exec (.openStream w) s = .next ((s.failGroup e).endItem w e 0)))) ∧
    (w.opcode = 0x03 →
      (x.isOpen = true → ∃ t, exec (.closeStream w) s = .next t ∧ ItemEnds s t w [] 0 (x.written % 2 ^ 32) ∧
        (t.stream w).isOpen = false) ∧
      (x.isOpen = false → exec (.closeStream w) s = .next (s.endOpen w))) ∧
    (w.opcode = 0x05 →
      (s.afeHeld = false → ∃ t, exec (.mount w f) s = .next t ∧ t.hst.mounted = true ∧ t.hst.waiting = [] ∧
        t.fmt.chain = (s.mountFmt f).fmt.chain) ∧
      (s.afeHeld = true → exec (.mount w f) s = .next ((s.enterScout.mountTape f).endItem w 0 0))) ∧
    (w.opcode = 0x06 → ∃ t, exec (.unload w) s = .next t ∧ t.hst.mounted = false ∧ t.fmt.chain = [] ∧ t.hst.records = [] ∧
      t.hst.waiting = []) ∧
    (w.opcode = 0x07 →
      (∀ y, s.findRecord w = some y → ∃ t, exec (.locate w) s = .next t ∧ ItemEnds s t w [] 0 (y % 2 ^ 32)) ∧
      (s.findRecord w = none → exec (.locate w) s = .next (s.endOpen w))) ∧
    (w.opcode = 0x82 →
      (natAt w.params 0 4 = 0 → log (s.aonBytes 0 0x1000)) ∧ (natAt w.params 0 4 = 1 → log (s.aonBytes 0x8000 0x8000)) ∧
      (1 < natAt w.params 0 4 → ∃ t, exec (.readLog w) s = .next t ∧ ItemEnds s t w [] 0x0010 0))

/-- R169, R337, R339, R384: COMMIT. The group is closed and the item waits for it; the transaction of its commit. -/
def CommitForms : Prop :=
  ∀ (w : WorkItem) (plans : List CommitPlan) (s : State), s.canonical = true → Orderly s →
    (s.clocked = true → ItemReady s w → w.opcode = 0x04 →
      (∀ e, s.commitGroup.2 = some e → exec (.commit w plans) s = .next ((s.failGroup e).endItem w e 0)) ∧
      (s.commitGroup.2 = none → exec (.commit w plans) s =
        let g := s.commitGroup.1
        let u := g.waitItem w (g.openGroup - 1) (g.openGroup - 1) none
        .next ({ u with hst := { u.hst with closed := givePlans plans u.hst.closed } }).commitNext) ∧
      ((∀ e ∈ s.hst.streams, e.2.mayEnd (!s.openStreams) = false) → plans = [] →
        (∀ g ∈ s.hst.closed.head?, g.plan = none ∨ g.committed = true) →
        ∃ t g, exec (.commit w plans) s = .next t ∧ t.out = s.out ∧ t.txr = s.txr ∧ t.hst.closed = s.hst.closed ++ [g] ∧
          g.seq = s.openGroup ∧
          t.hst.waiting = [⟨w.fn, w.pair, w.cid, false, s.openGroup, 0, 0, s.openGroup % 2 ^ 32, none, 0⟩])) ∧
    (∀ g l p, s.hst.closed = g :: l → g.plan = some p → g.committed = false → s.imageOk = true →
      s.commitRoom p.core (s.commitActions g p) = true →
      s.commitNext.txReg 0 = BitVec.ofNat 64 g.seq ∧ (s.commitNext.txReg 4).toNat = 1 - (s.txReg 4).toNat % 2 ∧
        s.commitNext.fld F.CORE_TXCNT.COMMITS = Min.min (s.fld F.CORE_TXCNT.COMMITS + 1) 65535)

/-- R169, R336, R360, R384: WRITE_RECORD, IMPORT_KEY and READ_RECORD. -/
def WorkItemData : Prop :=
  ∀ (w : WorkItem) (s : State), s.canonical = true → Orderly s → s.clocked = true → ItemReady s w →
    let x := s.stream w
    let n := w.length.toNat
    let dma := s.busMaster w.fn
    let crcOk := s.flag F.HST_FN.CRC_DEV w.fn = true ∨ crc32c (bytesAt w.data 0 n) = w.crc
    let l := w.tape.flatten
    let found := s.readUnits w.stream.toNat w.seq.toNat (l.length / 32 + w.tape.length + 1) {} l (w.tape.map List.length)
    let ends (i : Instr) (st : W16) : Prop := ∃ t, exec i s = .next t ∧ ItemEnds s t w [] st 0 ∧ t.hst.records = s.hst.records
    (w.opcode = 0x41 →
      (x.isOpen = false → exec (.writeRecord w) s = .next (s.endOpen w)) ∧
      (x.isOpen = true → dma = false → n ≠ 0 → ends (.writeRecord w) 0x0003) ∧
      (x.isOpen = true → dma = true → n ≠ 0 → ¬crcOk → ends (.writeRecord w) 0x0021) ∧
      (x.isOpen = true → n = 0 ∨ (dma = true ∧ crcOk) →
        (s.keyed x = false → ends (.writeRecord w) 0x0030) ∧
        (s.keyed x = true → s.engineOff x = true → exec (.writeRecord w) s = .next ((s.failGroup 0x0003).endItem w 0x0003 0)) ∧
        (s.keyed x = true → s.engineOff x = false →
          (x.plain = true → ∃ t, exec (.writeRecord w) s = .next t ∧ t.out = s.out ∧
            t.hst.waiting =
              [⟨w.fn, w.pair, w.cid, false, (s.keepRecord w).1.openGroup, 0, 0, n, some (w.stream.toNat, w.seq.toNat), 0⟩] ∧
            (t.stream w).written = x.written + 1 ∧
            ∃ r ∈ t.hst.records, r.stream = w.stream ∧ r.seq = w.seq ∧ r.length = n ∧ r.yealm.isSome = true) ∧
          (∀ g, s.keepRecord w = (g, none) →
            exec (.writeRecord w) s = .next (g.waitItem w g.openGroup n (some (w.stream.toNat, w.seq.toNat)))) ∧
          (∀ g e, s.keepRecord w = (g, some e) → exec (.writeRecord w) s = .next ((s.failGroup e).endItem w e 0))))) ∧
    (w.opcode = 0x42 →
      (dma = false → ∃ t, exec (.importKey w) s = .next t ∧ ItemEnds s t w [] 0x0003 0 ∧ t.keys = s.keys) ∧
      (dma = true → ¬crcOk → ∃ t, exec (.importKey w) s = .next t ∧ ItemEnds s t w [] 0x0021 0 ∧ t.keys = s.keys) ∧
      (dma = true → crcOk →
        (importShapeOk (natAt w.params 0 4) n = false → ∃ t, exec (.importKey w) s = .next t ∧ ItemEnds s t w [] 0x0010 0 ∧
          t.keys = s.keys) ∧
        (importShapeOk (natAt w.params 0 4) n = true → ∃ t, exec (.importKey w) s = .next t ∧
          ItemEnds s t w [] (s.importKey (natAt w.params 0 4) (bytesAt w.data 0 n)).2 0 ∧
          t.keys = (s.importKey (natAt w.params 0 4) (bytesAt w.data 0 n)).1.keys))) ∧
    (w.opcode = 0x81 →
      (∀ b crc, found = .ok (some (b, crc)) →
        (dma = false → ends (.readRecord w) 0x0003) ∧
        (dma = true → (crc32c b).toNat ≠ crc → ends (.readRecord w) 0x0021) ∧
        (dma = true → (crc32c b).toNat = crc → ∃ t, exec (.readRecord w) s = .next t ∧
          ItemEnds s t w (hostOuts s w.fn w.addr.toNat (b.take n)) 0 (b.length % 2 ^ 32))) ∧
      (found = .ok none → exec (.readRecord w) s = .next (s.endOpen w)) ∧
      (∀ e, found = .error e → ends (.readRecord w) e))

end Sys2Proof.Claims

/-- R169, R336, R337, R339, R354, R360, R378, R384: each operation of the standard program set on a served work item of its opcode, with
its effect and the entry it ends with, or what it waits for; any other item. That the images serve the items so is log entry 36.
The model's own readings in it: log entry 50 (DESIGN CHOICE), log entry 51 (DEDUCED), log entry 53 (DEDUCED), log entry 91 (DESIGN
CHOICE), log entry 93 (DESIGN CHOICE), log entry 107 (DESIGN CHOICE). -/
def Obligations.WorkItems : Prop := WorkItemOpcodes ∧ WorkItemControls ∧ CommitForms ∧ WorkItemData

/-! ## Ring and umpire -/

namespace Sys2Proof.Claims

/-- A frame may leave on a port at once: the ports carry frames, its link is up, it is no fold edge and fewer than 256 of its frames are
unacknowledged. -/
def Open (s : State) (p : Port) : Prop := s.portUp p = true ∧ (s.rport p).foldEdge = false ∧ (s.rport p).unacked.length < 256

/-- The emission of a frame that leaves on a port at once (R390), with its blocks on the port's four lanes (R388). -/
def frameOut (s : State) (p : Port) (folded : Bool) (hops : Nat) (h b : List Byte) : Out :=
  let link := linkWord (s.rport p).nextSeq (s.rport p).expect true (s.rport p).nakDue folded hops
  .ringFrame p link h b (crc32c (h ++ b)) (s.frameBlocks p link h b).1

/-- What the port holds once that frame has left. -/
def framePut (s : State) (p : Port) (folded : Bool) (hops : Nat) (h b : List Byte) : RPort :=
  { s.rport p with
    unacked := (s.rport p).unacked ++ [⟨(s.rport p).nextSeq, folded, hops, h, b⟩]
    nextSeq := ((s.rport p).nextSeq + 1) % 4096, ackDue := false, nakDue := false }

/-- The emission of a ring-control frame of a kind, to a device (R391). -/
def controlOut (s : State) (p : Port) (kind dst : Nat) (b : List Byte) : Out :=
  frameOut s p false 0 (frameHeader 0x03 true dst s.devId s.rng.nextMsg.toNat 0 (b.length + 1) (b.length + 1)) (Config.ringControl kind :: b)

/-- The HELLO of this formatter on a port: its ID and serial (R391, R398). -/
def helloOut (s : State) (p : Port) : Out := controlOut s p 0 0xFFFF (leBytes 2 s.devId ++ leBytes 8 Config.serial.toNat)

/-- A frame as its link accepts it: the link word passes its CRC-16 and carries no acknowledgement, the frame passes its CRC-32C
and is the one expected. -/
def Accepted (s : State) (p : Port) (f : RingFrame) : Prop :=
  s.portUp p = true ∧ lwOk f.link = true ∧ lwAckValid f.link = false ∧ lwNak f.link = false ∧ frameOk f = true ∧
    lwSeq f.link = (s.rport p).expect

end Sys2Proof.Claims

/-- R391, R393, R394: SEND of an unmarked message of one frame leaves by its port and waits for its receipt; with nowhere to go it
ends BAD_PARAM; the receipt, or 1 ms without one, ends it. POST_RX posts its buffer, a 17th of a class ends EMPTY.
The model's own readings in it: log entry 54 (DEDUCED), log entry 55 (DEDUCED). -/
def Obligations.RingMessages : Prop :=
  ∀ (p : Port) (i : Nat) (c : Cmd) (msg : W16) (f : RingFrame) (s : State),
    let n := dC c.desc
    let r := (s.start c).taRead (dA c.desc) n
    let port := portTarget p
    (Starts s port i 1 c → s.flag F.RNG_CTL.RUN = true → 0 < n → n ≤ 2048 → 0x40 ≤ dD c.desc → dArg c.desc ≠ 0 →
      s.engCheck c (dA c.desc) n = none →
      (r.2.2 = true → exec (.send p i) s = .next (r.1.finish c 0x0020)) ∧
      (r.2.2 = false → Open r.1 p →
        let h := frameHeader (dD c.desc) true (dArg c.desc) r.1.devId r.1.rng.nextMsg.toNat 0 n n
        ∃ t, exec (.send p i) s = .next t ∧ t.out = r.1.out ++ [frameOut r.1 p false 0 h r.2.1] ∧
          t.rport p = framePut r.1 p false 0 h r.2.1 ∧ t.rport (Port.opp p) = r.1.rport (Port.opp p) ∧
          t.rng.sending = r.1.rng.sending ++ [⟨c, r.1.rng.nextMsg, dArg c.desc == 0xFFFF⟩] ∧
          t.rng.nextMsg = r.1.rng.nextMsg + 1 ∧ t.held = r.1.held ∧ t.mem = r.1.mem) ∧
      (r.2.2 = false → r.1.rng.east.foldEdge = true → r.1.rng.west.foldEdge = true → dArg c.desc ≠ 0xFFFF →
        ∃ t, exec (.send p i) s = .next t ∧ t.out = r.1.out ∧
          t.held = r.1.held ++ [⟨completionItem port 1 false 0x0010 2 0 (dTag c.desc), c⟩])) ∧
    (Starts s port i 1 c → s.flag F.RNG_CTL.RUN = true → 0 < n → dD c.desc < 0x40 ∨ dArg c.desc = 0 ∨ 16777216 < n →
      exec (.send p i) s = .next ((s.start c).finish c 0x0010)) ∧
    (Starts s port i 1 c → s.flag F.RNG_CTL.RUN = true → n = 0 → exec (.send p i) s = .next ((s.start c).finish c 0)) ∧
    (s.flag F.RNG_CTL.RUN = false → exec (.send p i) s = .next s) ∧
    (∀ x, s.clocked = true → (s.rng.sending.find? fun y => y.msg == msg && !y.broadcast) = some x →
      (∃ t, exec (.sendReceiptTimeout msg) s = .next t ∧ t.rng.sending = s.rng.sending.erase x ∧
        t.held = s.held ++ [⟨completionItem x.cmd.target (dCode x.cmd.desc) false 0x0003 1 0 (dTag x.cmd.desc), x.cmd⟩]) ∧
      (fhClass f.header = 2 → frameOk f = true → fhDst f.header = s.devId → natAt f.payload 0 2 = msg.toNat →
        ∃ t, exec (.receipt f) s = .next t ∧ t.rng.sending = s.rng.sending.erase x ∧
          t.held = s.held ++ [⟨completionItem x.cmd.target (dCode x.cmd.desc) false (BitVec.ofNat 16 (natAt f.payload 2 2))
            (if natAt f.payload 2 2 = 0x0010 then 2 else 0) 0 (dTag x.cmd.desc), x.cmd⟩])) ∧
    ((∀ y ∈ s.rng.sending, y.msg = msg → y.broadcast = true) → exec (.sendReceiptTimeout msg) s = .next s) ∧
    (Starts s port i 2 c → s.engCheckW c (dA c.desc) n = none →
      let same := (s.rng.posted.filter fun x => dArg x.desc == dArg c.desc).length
      (same < 16 → ∃ t, exec (.postRx p i) s = .next t ∧ t.rng.posted = s.rng.posted ++ [c] ∧ t.held = s.held ∧
        t.cmds port = (s.cmds port).erase c) ∧
      (16 ≤ same → exec (.postRx p i) s = .next ((s.start c).finish c 0x0002)))

/-- R389, R392, R394 to R397, R404: a frame at a port. Past it goes out of the other port with a hop more; this formatter's own is
stripped; a whole message for it is stored, answered and ends its POST_RX; a bad link word asks for a resend, a bad frame on its way
ends in a stomp; one out of sequence does nothing. Resending, acknowledgement blocks, a lost link and a fold edge.
The model's own readings in it: log entry 12 (DEDUCED), log entry 54 (DEDUCED), log entry 101 (DESIGN CHOICE). -/
def Obligations.RingLink : Prop :=
  ∀ (p : Port) (f : RingFrame) (s : State), s.canonical = true → s.clocked = true →
    let q := Port.opp p
    let r := s.rport p
    let next : RPort := { r with expect := (r.expect + 1) % 4096, ackDue := true }
    (s.portUp p = false → exec (.ringFrameReceive p f) s = .next s) ∧
    (s.portUp p = true → lwOk f.link = false →
      exec (.ringFrameReceive p f) s = .next (s.setRport p { r with nakDue := true })) ∧
    (Accepted s p f → fhSrc f.header ≠ s.devId → fhDst f.header ≠ s.devId → fhDst f.header ≠ 0xFFFF → Open s q →
      ∃ t, exec (.ringFrameReceive p f) s = .next t ∧ t.rport p = next ∧
        t.out = s.out ++ [frameOut s q (lwFolded f.link) (lwHops f.link + 1) f.header f.payload] ∧
        t.rport q = framePut s q (lwFolded f.link) (lwHops f.link + 1) f.header f.payload ∧ t = { s with rng := t.rng, out := t.out }) ∧
    (Accepted s p f → fhSrc f.header = s.devId → exec (.ringFrameReceive p f) s = .next (s.setRport p next)) ∧
    (s.portUp p = true → lwOk f.link = true → lwAckValid f.link = false → lwNak f.link = false → frameOk f = true →
      lwSeq f.link ≠ r.expect → exec (.ringFrameReceive p f) s = .next s) ∧
    (s.portUp p = true → lwOk f.link = true → lwAckValid f.link = false → lwNak f.link = false → frameOk f = false →
      fhSrc f.header ≠ s.devId → fhDst f.header ≠ s.devId → (s.rport q).foldEdge = false →
      ∃ t, exec (.ringFrameReceive p f) s = .next t ∧ t.out = s.out ++ [.stomp q (s.laneControl q Config.stompBlock).2] ∧ (t.rport p).nakDue = true ∧
        t.fld F.RNG_CNT.STOMPS = Min.min (s.fld F.RNG_CNT.STOMPS + 1) 255) ∧
    (∀ c, Accepted s p f → Open s p → fhSrc f.header ≠ s.devId → fhDst f.header = s.devId → 0x40 ≤ fhClass f.header →
      fhOff f.header = 0 → fhTotal f.header = f.payload.length → f.payload.length ≤ dC c.desc → s.rng.reasm = [] →
      s.rng.finished = [] → s.rng.posted = [c] → dArg c.desc = fhClass f.header → Quiet s (dA c.desc) f.payload.length →
      ∃ t, exec (.ringFrameReceive p f) s = .next t ∧ Wrote s t (dA c.desc) f.payload false ∧ t.rng.posted = [] ∧ t.rng.reasm = [] ∧
        t.held = s.held ++
          [⟨completionItem c.target (dCode c.desc) false 0 (fhSrc f.header) f.payload.length (dTag c.desc), c⟩] ∧
        t.out.length = s.out.length + 1) ∧
    (s.portUp p = true → r.unacked ≠ [] → ∃ t, exec (.ringResendTimeout p) s = .next t ∧
      t.out.length = s.out.length + r.unacked.length ∧ (t.rport p).unacked = r.unacked ∧ (t.rport p).resends = r.resends + 1 ∧
      t.fld F.RNG_CNT.RESENDS = Min.min (s.fld F.RNG_CNT.RESENDS + r.unacked.length) 65535 ∧
      t.portState p = (if 15 ≤ r.resends then 4 else 2)) ∧
    (s.portUp p = true → r.ackDue = true ∨ r.nakDue = true → ∃ t, exec (.ackBlock p none) s = .next t ∧
      t.out = s.out ++ [.ringAck p r.expect r.nakDue (s.laneControl p (Config.ackBlock r.expect r.nakDue)).2] ∧
      t.rport p = { r with ackDue := false, nakDue := false }) ∧
    (s.portUp p = false ∨ (r.ackDue = false ∧ r.nakDue = false) → exec (.ackBlock p none) s = .next s) ∧
    (∀ g, s.portUp p = true → r.unacked = [g] → g.seq < 4096 → r.held = [] → (∀ y ∈ s.rng.sending, y.broadcast = false) →
      exec (.ackBlock p (some (BitVec.ofNat 12 (g.seq + 1), false))) s = .next (s.setRport p { r with unacked := [], resends := 0 }) ∧
      ∃ t, exec (.ackBlock p (some (BitVec.ofNat 12 g.seq, true))) s = .next t ∧ (t.rport p).unacked = [g] ∧
        t.out.length = s.out.length + 1 ∧ (t.rport p).resends = r.resends + 1) ∧
    (∀ rx, s.portUp p = false → exec (.ackBlock p (some rx)) s = .next s) ∧
    (s.portState p = 2 → ∃ t, exec (.ringLinkDown p) s = .next t ∧ t.portState p = 4 ∧ t = { s with regs := t.regs }) ∧
    (s.portState p ≠ 2 → exec (.ringLinkDown p) s = .next s) ∧
    (r.foldEdge = false → s.portState p = 3 → r.held = [] →
      (r.unacked = [] → ∃ t, exec (.foldEdge p) s = .next t ∧ (t.rport p).foldEdge = true ∧ t.out = s.out ∧
        t.fld F.RNG_CNT.FOLDS = Min.min (s.fld F.RNG_CNT.FOLDS + 1) 255) ∧
      (∀ g, r.unacked = [g] → g.folded = false → Open s q → ∃ t, exec (.foldEdge p) s = .next t ∧ (t.rport p).foldEdge = true ∧
        (t.rport p).unacked = [] ∧ t.out = s.out ++ [frameOut s q true g.hops g.header g.payload])) ∧
    (r.foldEdge = true ∨ s.portState p = 2 → exec (.foldEdge p) s = .next s)

namespace Sys2Proof.Claims

/-- R389, R391, R398, R399: PARK, HELLO and JOIN at a port. -/
def PortLife (p : Port) (f : RingFrame) (id : W16) (serial : W64) (s : State) : Prop :=
  let me := s.devId
  let st := s.portState p
  let again := (st = 3 ∨ st = 4) ∧ (s.rport p).foldEdge = true
  let exchange := s.flag (enField p) = true ∧ (st = 1 ∨ again)
  let refusedIds := id.toNat = me ∨ id = 0 ∨ id = 0xFFFF ∨ me = 0 ∨ me = 0xFFFF
  let clashLater := st = 2 ∧ id.toNat = me ∧ serial ≠ Config.serial
  (st = 2 → ∃ t, exec (.park p) s = .next t ∧ t.portState p = 3 ∧ t = { s with regs := t.regs }) ∧
    (st ≠ 2 → exec (.park p) s = .next s) ∧
    (exchange → ¬refusedIds → ∃ t, exec (.hello p id serial) s = .next t ∧ t.portState p = 2 ∧ t.fld (nbrField p) = id.toNat ∧
      t.rport p = { foldEdge := false } ∧ t.rport (Port.opp p) = s.rport (Port.opp p) ∧ t.mem = s.mem ∧
      t.out = s.out ++ (if st = 1 then [] else [helloOut s p])) ∧
    ((exchange ∧ refusedIds) ∨ clashLater →
      ∃ t, exec (.hello p id serial) s = .next t ∧ t.portState p = 4 ∧ t.flag F.RNG_STAT.ID_CLASH = true) ∧
    (¬exchange → ¬clashLater → exec (.hello p id serial) s = .next s) ∧
    exec (.join p f) s = .next s

/-- R398, R400: EN and GO written by the host. The 86 cells of the serve pattern are 16 alternating, the sync, and each bit of the target
ID, the hops and their CRC-8 as a pair. -/
def PortControl (p : Port) (s : State) : Prop :=
  let st := s.portState p
  let again := (st = 3 ∨ st = 4) ∧ (s.rport p).foldEdge = true
  let w := if s.flag F.RNG_SERVE.PORT then Port.west else Port.east
  let cells := serveCells (s.fld F.RNG_SERVE.SERVE_ID) (s.fld F.RNG_SERVE.HOPS)
  (s.flag (enField p) = false ∨ again → ∃ t, exec (.portTrain p) s = .next t ∧ t.flag (enField p) = true ∧ t.portState p = 1 ∧
    t.out = s.out ++ [helloOut s p] ∧ t = { s with regs := t.regs, out := t.out, rng := t.rng }) ∧
    (s.flag (enField p) = true → ¬again → exec (.portTrain p) s = .next s) ∧
    (s.flag (enField p) = true → ∃ t, exec (.portPark p) s = .next t ∧ t.flag (enField p) = false ∧ t.portState p = 3 ∧
      t.out = s.out ++ (if st = 2 then [controlOut s p 1 (s.fld (nbrField p)) []] else []) ∧
      t = { s with regs := t.regs, out := t.out, rng := t.rng }) ∧
    (s.flag (enField p) = false → exec (.portPark p) s = .next s) ∧
    (s.portState w = 3 ∨ s.portState w = 4 → cells.length = 86 ∧ exec .serveSend s =
      .next { s with out := s.out ++ List.replicate (Max.max 1 (s.fld F.RNG_SERVE.REPEAT)) (.serve w cells) }) ∧
    (s.portState w ≠ 3 → s.portState w ≠ 4 → exec .serveSend s = .next (s.raise F.RNG_STAT.SERVE_REFUSED))

/-- R400, R448: the serve pattern received. -/
def ServeHeard (p : Port) (id : W16) (hops crc : Byte) (s : State) : Prop :=
  let n := s.fld F.PWR_STAT.STATE
  let good := crc8 ((leBytes 2 id.toNat).reverse ++ [hops]) = crc
  let on := if hops = 0 then s else s.emit (.serve (Port.opp p) (serveCells id.toNat (hops.toNat - 1)))
  (n = 0 → exec (.serveReceive p id hops crc) s = .next s) ∧
    (n = 1 ∨ (n ≠ 0 ∧ ¬good) → exec (.serveReceive p id hops crc) s = .next (s.wakeBy (laneSource p))) ∧
    (1 < n → good →
      (id = 0xFFFF → exec (.serveReceive p id hops crc) s = .next (on.wakeBy 0x010)) ∧
      (id.toNat = s.devId → id ≠ 0xFFFF → exec (.serveReceive p id hops crc) s = .next (s.wakeBy 0x010)) ∧
      (id.toNat ≠ s.devId → id ≠ 0xFFFF → exec (.serveReceive p id hops crc) s = .next on))

end Sys2Proof.Claims

/-- R389, R391, R398 to R400, R448: the lives of a port, JOIN, and the serve pattern sent and received, each in every state of the
port. PARK parks a link that is up. HELLO at the exchange makes the port up and no fold edge, or clashes; a clash takes the link down
and sets ID_CLASH; on a link that is up only another serial with this formatter's ID clashes; anything else changes nothing. EN
written to 1 trains, EN written to 0 sends PARK on a link that is up and parks. GO sends the pattern REPEAT times where the port is
parked or down, and is refused elsewhere. A serve wakes, passes on, or both, by its ID and hops left.
The model's own readings in it: log entry 13 (DEDUCED), log entry 56 (DEDUCED), log entry 101 (DESIGN CHOICE). -/
def Obligations.RingPorts : Prop :=
  ∀ (p : Port) (f : RingFrame) (id : W16) (serial : W64) (hops crc : Byte) (s : State), s.canonical = true →
    (s.clocked = true → PortLife p f id serial s) ∧ (s.inRun = true → PortControl p s) ∧ ServeHeard p id hops crc s

/-- R401 to R403: a partner report. One that fails its CRC-32C is dropped; one whose window is open is counted there; the first of
its pair opens a window and stands in the log at HEAD, with SIGNAL to the watching core; with no log, or 128 unread reports in it, it
is counted as dropped. A
window that closes with nothing counted leaves no trace, and one that counted writes its summary.
The model's own readings in it: log entry 14 (DEDUCED), log entry 15 (DEDUCED). -/
def Obligations.UmpireReportsAndWindows : Prop :=
  ∀ (b : List Byte) (s : State), s.canonical = true → s.clocked = true → s.ump.dropsSince = 0 → b.length = 32 →
    let code := natAt b 0 2
    let origin := natAt b 2 2
    let ok := (crc32c (bytesAt b 0 28)).toNat = natAt b 28 4
    let head := s.fld F.UMP_PTR.HEAD
    let written (k ms : Nat) (rec : List Byte) (t : State) : Prop :=
      t.memBytes (4096 * k + 32 * head) 32 = rec ∧ t.fld F.UMP_PTR.HEAD = (head + 1) % 128 ∧ t.aonMs = ms ∧
        t.ump.full = decide ((head + 1) % 128 = s.fld F.UMP_PTR.TAIL) ∧
        t.fld F.UMP_CNT.FORWARDED = Min.min (s.fld F.UMP_CNT.FORWARDED + 1) 65535 ∧
        (t.core (s.fld F.UMP_CTL.CORE)).evEdge = (s.core (s.fld F.UMP_CTL.CORE)).evEdge ||| 0x200
    (¬ok → exec (.faultReportReceive b) s = .next s) ∧
    (ok → ∀ w, s.windowOf origin code = some w → exec (.faultReportReceive b) s = .next
      { s with ump := { s.ump with windows := s.ump.windows.map fun x => if x = w then { w with count := w.count + 1 } else x } }) ∧
    (ok → s.windowOf origin code = none → s.ump.windows.length < 64 →
      let w : Window := ⟨BitVec.ofNat 16 origin, BitVec.ofNat 16 code, BitVec.ofNat 16 (natAt b 4 2), false, 0,
        BitVec.ofNat 64 (natAt b 8 8), s.aonMs⟩
      (∀ k, s.logTile = some k → s.logUnread < 128 → s.strong k = false ∨ s.locatedIn k (32 * head) 32 = [] →
        ∃ t, exec (.faultReportReceive b) s = .next t ∧ t.ump.windows = s.ump.windows ++ [w] ∧
          written k s.aonMs (reportBytes code origin (natAt b 4 2) false false true (natAt b 8 8) 1 s.aonMs) t) ∧
      (s.logTile = none ∨ (s.logUnread = 128 ∧ ∃ ms, s.ump.dropMs = some ms ∧ s.aonMs < ms + 100) →
        ∃ t, exec (.faultReportReceive b) s = .next t ∧ t.ump.windows = s.ump.windows ++ [w] ∧ t.mem = s.mem ∧
          t.fld F.UMP_CNT.DROPPED = Min.min (s.fld F.UMP_CNT.DROPPED + 1) 65535)) ∧
    (∀ o k : W16, s.windowOf o.toNat k.toNat = none → exec (.umpWindowClose o k) s = .next s) ∧
    (∀ (o k : W16) (w : Window), s.windowOf o.toNat k.toNat = some w →
      (w.count = 0 → exec (.umpWindowClose o k) s = .next { s with
        aonMs := Max.max s.aonMs (w.openedMs + 100), ump := { s.ump with windows := s.ump.windows.erase w } }) ∧
      (∀ x, w.count ≠ 0 → w.own = false → s.logTile = some x → s.logUnread < 128 →
        s.strong x = false ∨ s.locatedIn x (32 * head) 32 = [] →
        ∃ t, exec (.umpWindowClose o k) s = .next t ∧ t.ump.windows = s.ump.windows.erase w ∧
          written x (Max.max s.aonMs (w.openedMs + 100))
            (reportBytes w.code.toNat w.origin.toNat w.reporter.toNat true false true w.detail.toNat w.count
              (Max.max s.aonMs (w.openedMs + 100))) t))

/-! ## Teams -/

namespace Sys2Proof.Claims

/-- A team frame of a class that has reached its destination, in a running engine, for slot `t`: what it says. -/
def TeamFrame (s : State) (f : RingFrame) (cls t : Nat) (m : TIn) : Prop :=
  s.clocked = true ∧ fhClass f.header = cls ∧ frameOk f = true ∧ fhDst f.header = s.devId ∧ s.flag F.TEAM_CTL.RUN = true ∧
    s.frameSlot f.payload = some t ∧
    m = ⟨t, natAt f.payload 6 1, cls, natAt f.payload 7 1, natAt f.payload 8 4, natAt f.payload 12 3 % 2 ^ 18,
      natAt f.payload 15 1, fhOff f.header, f.payload.drop 16⟩

/-- A tile address lies outside the transactional image, which TEAM reads its record from. -/
def OffImage (s : State) (a : W64) : Prop :=
  tileAt s a < s.bufTile s.imageHandle ∨ s.bufTile s.imageHandle + 4 ^ hClass s.imageHandle ≤ tileAt s a

/-- The same team with one chain changed. -/
def withChain (s : State) (c : Chain) (f : Chain → Chain) : List Chain :=
  s.team.chains.map fun x => if x.cmd.seq = c.cmd.seq then f x else x

end Sys2Proof.Claims

/-- R409, R413, R414, R419, R423, R428, R430: the commands of TEAM. A STRIPE that fails a check ends with its status, one of layout 2
completes at once, one in a parity chain is accepted and waits for READY; a REBUILD_READ of a stripe written after the loss gives
the null unit, of a listed one STRIPE_LOST; a LEAK_COMMIT waits for its seal, which ends it or lets LEAK go to the leader.
The model's own readings in it: log entry 57 (DEDUCED), log entry 59 (DEDUCED). -/
def Obligations.TeamCommands : Prop :=
  ∀ (i : Nat) (c : Cmd) (s : State),
    let t := dArg c.desc
    let stripe := dC c.desc
    let l := dD c.desc
    let u := s.start c
    (Starts s 3 i 1 c →
      (∀ e, s.stripeCheck c = some e → exec (.stripe i) s = .next (u.finish c e)) ∧
      (s.stripeCheck c = none → l = s.teamSelf t → s.isData t l = true → s.teamLayout t = 2 →
        (∃ b, s.taRead (dA c.desc) (s.unitLen t) = (s, b, false)) → stripe / s.spr t < s.leakLow t + 1024 →
        (s.team.chains.filter fun ch => ch.slot == t && !ch.receiver).length < 4 → stripe + 1 < 2 ^ 32 →
        ∃ x, exec (.stripe i) s = .next x ∧ Ended s x c 0 0 0 false ∧ x.fld F.TEAM_NEXT.STRIPE t = stripe + 1 ∧
          x.fld F.TEAM_CNT0.STRIPES = Min.min (s.fld F.TEAM_CNT0.STRIPES + 1) 65535 ∧ x.team = s.team ∧ x.out = s.out) ∧
      (s.stripeCheck c = none → l = s.teamSelf t → s.isData t l = true → 3 ≤ s.teamLayout t →
        (∃ b, s.taRead (dA c.desc) (s.unitLen t) = (s, b, false)) → stripe / s.spr t < s.leakLow t + 1024 →
        (s.team.chains.filter fun ch => ch.slot == t && !ch.receiver).length < 4 → stripe + 1 < 2 ^ 32 →
        (s.liveMembers t).getLast? ≠ some l → s.team.early = [] →
        ∃ x, exec (.stripe i) s = .next x ∧ x.fld F.TEAM_NEXT.STRIPE t = stripe + 1 ∧ x.held = s.held ∧ x.out = s.out ∧
          x.cmds 3 = (s.cmds 3).erase c ∧
          x.team.chains = s.team.chains ++
            [⟨c, t, stripe, l, false, s.attempt t stripe % 256, none, false, [], [], false, [s.rng.nextMsg, s.rng.nextMsg + 1]⟩])) ∧
    (Starts s 3 i 2 c → s.slotActive t = true → l < s.memberCount t → s.teamBuffer c t = none →
      (s.stripeListed t stripe l = true → s.memberLost t l = false ∨ stripe < s.lossStripe t l → ∃ x, exec (.rebuildRead i) s = .next x ∧ Ended s x c 0x0041 0 0 false ∧
        x.flag F.TEAM_STAT.STRIPE_LOST_SEEN = true ∧ x.mem = s.mem) ∧
      (s.memberLost t l = true → s.lossStripe t l ≤ stripe →
        exec (.rebuildRead i) s =
          let v := u.taWrite (dA c.desc) ((List.range (s.unitLen t)).map fun k => if k = 1 then 0x7A else 0) false
          .next (((v.padUnit { cmd := c, slot := t, stripe := stripe, x := l, receiver := true }).bump F.TEAM_CNT1.REBUILT).finish c 0))) ∧
    (Starts s 3 i 2 c → s.slotActive t = false ∨ s.memberCount t ≤ l → exec (.rebuildRead i) s = .next (u.finish c 0x0010)) ∧
    (Starts s 3 i 3 c → s.slotActive t = true →
      (0 < l → s.leakLow t ≤ stripe → stripe + l ≤ s.leakLow t + 1024 → ∃ x, exec (.leakCommit i) s = .next x ∧ x.held = s.held ∧
        x.team = { s.team with leaks := s.team.leaks ++ [{ cmd := c, slot := t, first := stripe, count := l, sealSeq := c.txSeq }] } ∧
        x.cmds 3 = (s.cmds 3).erase c) ∧
      (l = 0 ∨ stripe < s.leakLow t ∨ s.leakLow t + 1024 < stripe + l →
        exec (.leakCommit i) s = .next (u.finish c 0x0010))) ∧
    (∀ (k : Nat) (j : LeakJob), s.clocked = true → s.team.leaks[k]? = some j → j.sent = false →
      ((s.fmt.chain.any fun q => q.seq == j.sealSeq) = true → s.teamLeader j.slot ≠ s.devId → Open s s.teamPort →
        ∃ x, exec (.leakSend k) s = .next x ∧ x.held = s.held ∧
          (∀ y ∈ x.team.leaks, y.cmd.seq = j.cmd.seq → y.sent = true) ∧
          ∃ h, x.out = s.out ++ [frameOut s s.teamPort false 0 h
            (leBytes 4 (s.teamId j.slot) ++ leBytes 2 (s.teamGen j.slot) ++ leBytes 1 (s.teamSelf j.slot) ++ leBytes 9 0 ++
              leBytes 4 j.first ++ leBytes 4 j.count)] ∧ fhClass h = 0x16 ∧ fhDst h = s.teamLeader j.slot) ∧
      (∀ e, (s.fmt.chain.any fun q => q.seq == j.sealSeq) = false →
        (s.fmt.sealFailed.find? fun (e : Nat × W16) => j.cmd.txn != 0 && e.1 == j.cmd.txn) = some e →
        ∃ x, exec (.leakSend k) s = .next x ∧ (∀ y ∈ x.team.leaks, y.cmd.seq ≠ j.cmd.seq) ∧
          x.held = s.held ++ [⟨completionItem j.cmd.target (dCode j.cmd.desc) false e.2 0 0 (dTag j.cmd.desc), j.cmd⟩]) ∧
      ((s.fmt.chain.any fun q => q.seq == j.sealSeq) = false →
        (s.fmt.sealFailed.find? fun (e : Nat × W16) => j.cmd.txn != 0 && e.1 == j.cmd.txn) = none → exec (.leakSend k) s = .next s))

/-- R415 to R420, R423, R424, R428: each team frame at the member it reaches: PARITY kept by the P member, COPY written by a copy,
REBUILD held by a receiver until its other half is in, READY passed backward or kept, DONE and ABORT ending the chain, CLEAN ending
a LEAK_COMMIT, MAPCOPY loading the second's map, LEAK taken by the leader. A frame of another attempt, of no active team, or met while
TEAM is stopped is counted as unknown.
The model's own readings in it: log entry 31 (DEDUCED), log entry 57 (DEDUCED), log entry 58 (DEDUCED), log entry 59 (DEDUCED). -/
def Obligations.TeamFrames : Prop :=
  ∀ (f : RingFrame) (t : Nat) (m : TIn) (c : Chain) (s : State), s.canonical = true → Orderly s →
    let me := s.teamSelf t
    let at' := mkTa (taHandle (dA c.cmd.desc)) (taOff (dA c.cmd.desc) + m.off)
    let more : Chain → Chain := fun x => { x with got := x.got ++ [(m.half, m.off)] }
    let here := s.chainOf m = some c ∧ c ∈ s.team.chains ∧ c.slot = t ∧
      s.team.chains.filter (fun x => x.cmd.seq == c.cmd.seq) = [c]
    let notFull := c.got.length + 1 < 224 * s.teamN t
    (TeamFrame s f 0x10 t m → here → c.receiver = false → s.rebuilds c = false → s.teamLayout t = 3 → me = s.teamK t → m.half = 0 →
      (0, m.off) ∉ c.got → notFull → Quiet s at' m.body.length → OffImage s at' → taOff (dA c.cmd.desc) + m.off < 2 ^ 32 →
      (s.liveMembers t).getLast? = some me →
      ∃ x, exec (.parity f) s = .next x ∧ Wrote s x at' m.body false ∧ x.team.chains = withChain s c more ∧ x.out = s.out) ∧
    (TeamFrame s f 0x12 t m → here → c.receiver = false → s.rebuilds c = false → s.teamLayout t = 1 → (m.half, m.off) ∉ c.got →
      notFull → (s.liveMembers t).getLast? = some me → Quiet s at' m.body.length → OffImage s at' →
      taOff (dA c.cmd.desc) + m.off < 2 ^ 32 →
      ∃ x, exec (.teamCopyFrame f) s = .next x ∧ Wrote s x at' m.body false ∧ x.team.chains = withChain s c more ∧ x.out = s.out) ∧
    (TeamFrame s f 0x15 t m → here → c.receiver = true → (m.half, m.off) ∉ c.got → c.slices = [] →
      c.got.length + 1 < 448 * s.teamN t → ∃ x, exec (.rebuild f) s = .next x ∧ x.mem = s.mem ∧ x.out = s.out ∧
        x.team.chains = withChain s c fun y => { more y with slices := [⟨m.half, m.off, m.body, m.mask⟩] }) ∧
    (∀ k, TeamFrame s f 0x11 t m → here → c.receiver = false → c.readySent = false → s.rebuilds c = false →
      s.chainPrev { c with readyFrom := some m.sender } = some k → s.memberDev t k ≠ s.devId → Open s s.teamPort →
      ∃ x h b, exec (.ready f) s = .next x ∧ x.out = s.out ++ [frameOut s s.teamPort false 0 h b] ∧ fhClass h = 0x11 ∧
        fhDst h = s.memberDev t k ∧ natAt b 8 4 = c.stripe % 2 ^ 32 ∧
        x.team.chains = withChain s c fun y =>
          { y with readyFrom := some m.sender, readySent := true, msgs := y.msgs ++ [s.rng.nextMsg] }) ∧
    (TeamFrame s f 0x11 t m → s.chainOf m = none → s.team.early = [] →
      ((∀ y ∈ s.team.chains, y.slot = t → y.stripe = m.stripe → y.receiver = true) → ∃ x, exec (.ready f) s = .next x ∧
        x.team = { s.team with early := [(t, m.stripe, m.sender, m.attempt)] } ∧ x.out = s.out ∧ x.regs = s.regs) ∧
      ((∃ y ∈ s.team.chains, y.slot = t ∧ y.stripe = m.stripe ∧ y.receiver = false) →
        exec (.ready f) s = .next (s.bump F.TEAM_CNT1.UNKNOWN))) ∧
    (TeamFrame s f 0x13 t m → here → c.receiver = false → s.activeList.length * 229376 ≤ s.unitLen t →
      ∃ x, exec (.done f) s = .next x ∧ x.team.chains = s.team.chains.filter (fun y => y.cmd.seq != c.cmd.seq) ∧
        x.held = s.held ++ [⟨completionItem c.cmd.target (dCode c.cmd.desc) false 0 0 0 (dTag c.cmd.desc), c.cmd⟩] ∧ x.mem = s.mem) ∧
    (TeamFrame s f 0x14 t m → s.team.chains = [c] → c.slot = t → c.stripe = m.stripe → c.attempt = m.attempt → s.cmds 3 = [] →
      t < 2 → ∃ x, exec (.abort f) s = .next x ∧ x.team.chains = [] ∧
        x.flag F.TEAM_STAT.ABORT_SEEN = true ∧ x.fld F.TEAM_CNT0.ABORTS = Min.min (s.fld F.TEAM_CNT0.ABORTS + 1) 255 ∧
        ∃ item, x.held = s.held ++ [⟨item, c.cmd⟩] ∧ (item.extractLsb' 32 16).toNat = natAt m.body 0 2) ∧
    (∀ j, TeamFrame s f 0x17 t m → s.team.leaks = [j] → j.slot = t → j.sent = true → j.cleaned = [] → 0 < j.count →
      natAt m.body 0 4 ≤ j.first → j.first + j.count ≤ natAt m.body 0 4 + natAt m.body 4 4 →
      ∃ x, exec (.clean f) s = .next x ∧ x.team.leaks = [] ∧
        x.held = s.held ++ [⟨completionItem j.cmd.target (dCode j.cmd.desc) false 0 0 0 (dTag j.cmd.desc), j.cmd⟩]) ∧
    (TeamFrame s f 0x18 t m → t < 2 → s.teamSecond t = s.devId → s.teamLeader t ≠ s.devId → Open s s.teamPort →
      ∃ x, exec (.mapcopy f) s = .next x ∧ x.leakMap t = natAt m.body 4 128 ∧ x.leakLow t = natAt m.body 0 4 ∧
        ∃ h b, x.out = s.out ++ [frameOut s s.teamPort false 0 h b] ∧ fhClass h = 2 ∧ fhDst h = fhSrc f.header % 65536 ∧
          natAt b 0 2 = fhMsg f.header ∧ natAt b 2 2 = 0) ∧
    (TeamFrame s f 0x16 t m → s.teamLeader t = s.devId → exec (.leak f) s =
      .next (State.teamRun (s.leakIn t m.sender (natAt m.body 0 4) (natAt m.body 4 4)))) ∧
    (TeamFrame s f 0x16 t m → s.teamLeader t ≠ s.devId → exec (.leak f) s = .next (s.bump F.TEAM_CNT1.UNKNOWN)) ∧
    (∀ e ∈ [(Instr.parity f, 0x10), (.ready f, 0x11), (.teamCopyFrame f, 0x12), (.done f, 0x13), (.abort f, 0x14), (.rebuild f, 0x15),
        (.leak f, 0x16), (.clean f, 0x17), (.mapcopy f, 0x18)],
      (TeamFrame s f e.2 t m → e.2 ∈ [0x10, 0x12, 0x13, 0x14, 0x15] →
        (∀ y ∈ s.team.chains, y.slot = t → y.stripe = m.stripe → y.attempt ≠ m.attempt) →
        exec e.1 s = .next (s.bump F.TEAM_CNT1.UNKNOWN)) ∧
      (s.clocked = true → fhClass f.header = e.2 → frameOk f = true → fhDst f.header = s.devId →
        s.flag F.TEAM_CTL.RUN = false ∨ s.frameSlot f.payload = none → exec e.1 s = .next (s.bump F.TEAM_CNT1.UNKNOWN)))

/-- R412, R413, R433: RUN of TEAM, ACT of a slot, and a change of a slot's record.
The model's own readings in it: log entry 58 (DEDUCED), log entry 59 (DEDUCED), log entry 114 (DEDUCED). -/
def Obligations.TeamControl : Prop :=
  ∀ (slot : Fin 2) (s : State), s.canonical = true → OnTarget s → s.inRun = true →
    let t := slot.val
    let word (w : Nat) : Nat := s.imageWord (0x10000 + 0x8000 * t + w)
    (s.flag F.TEAM_CTL.RUN = false → s.imageOk = true → ∃ x, exec .teamRunStart s = .next x ∧ x.flag F.TEAM_CTL.RUN = true ∧
      OnlyRegs [0x1000000] s x) ∧
    (s.flag F.TEAM_CTL.RUN = false → s.imageOk = false → ∃ x, exec .teamRunStart s = .next x ∧ x.flag F.TEAM_CTL.RUN = false ∧
      x.flag F.TEAM_STAT.TXR_BAD = true ∧ OnlyRegs [0x1000004] s x) ∧
    (∃ x, exec .teamRunStop s = .next x ∧ x.flag F.TEAM_CTL.RUN = false ∧ x.team.leaks = [] ∧
      (s.team.chains = [] → x.cmds 3 = [] ∧ x.held = s.held ++
        (s.cmds 3).map (fun c => ⟨completionItem 3 (dCode c.desc) false 0x0003 0 0 (dTag c.desc), c⟩) ++
        s.team.leaks.map fun j => ⟨completionItem j.cmd.target (dCode j.cmd.desc) false 0x0003 0 0 (dTag j.cmd.desc), j.cmd⟩)) ∧
    (s.flag F.TEAM_SLOT.ACT t = false → s.teamStopped = true → ∃ x, exec (.teamSlotActivate slot) s = .next x ∧
      x.flag F.TEAM_SLOT.ACT t = true ∧ x.fld F.TEAM_NEXT.STRIPE t = word 3 / 2 ^ 32 ∧ x.leakLow t = word 4 % 2 ^ 32 ∧
      x.fld F.TEAM_SLOT.STATE t = word 1 % 16 ∧ x.txr = s.txr ∧ x.mem = s.mem) ∧
    (s.flag F.TEAM_SLOT.ACT t = true → exec (.teamSlotActivate slot) s = .next s) ∧
    (s.flag F.TEAM_SLOT.ACT t = false → s.teamStopped = false → ∃ x, exec (.teamSlotActivate slot) s = .next x ∧
      x.flag F.TEAM_STAT.STOPPED_ONLY = true ∧ OnlyRegs [0x1000004] s x) ∧
    (s.flag F.TEAM_SLOT.ACT t = false → ∃ x, exec (.teamRecordChange slot) s = .next x ∧ x.fld F.TEAM_SLOT.STATE t = word 1 % 16 ∧
      x.flag F.TEAM_SLOT.LEADER t = false ∧ x.flag F.TEAM_SLOT.SECOND t = false ∧ OnlyRegs [0x1000100 + 16 * t] s x) ∧
    (s.flag F.TEAM_SLOT.ACT t = true → s.team.chains = [] → s.teamLeader t ≠ s.devId →
      ∃ x, exec (.teamRecordChange slot) s = .next x ∧ x.fld F.TEAM_SLOT.STATE t = word 1 % 16 ∧
        x.flag F.TEAM_SLOT.LEADER t = false ∧ x.out = s.out)

/-! ## Power -/

namespace Sys2Proof.Claims

/-- The power controller's view in `PWR_STAT`. -/
def pwrAt (s : State) (state latched : Nat) : Prop := s.fld F.PWR_STAT.STATE = state ∧ s.fld F.PWR_STAT.LATCHED = latched

/-- An entry of the wake log as it stands at the head of the log of `s` (R452). -/
def Logged (s t : State) (left entered sources flags : Nat) : Prop :=
  let e := t.aonBytes (0x1000 + 16 * s.fld F.PWR_STAT.WLOG_HEAD) 16
  natAt e 0 4 = s.aonMs % 2 ^ 32 ∧ natAt e 4 1 = left ∧ natAt e 5 1 = entered ∧ natAt e 6 2 = sources ∧ natAt e 8 1 = flags ∧
    natAt e 9 7 = 0 ∧ t.fld F.PWR_STAT.WLOG_HEAD = (s.fld F.PWR_STAT.WLOG_HEAD + 1) % 64

/-- A start of a reset kind: tile memory, cores, engines and key slots are empty, every register outside BOOT, PWR, SMP and `KEY_CTL`
holds its reset value, and S0 is begun. -/
def Started (t : State) (kind : Nat) : Prop :=
  t.fld F.BOOT_STAT.KIND = kind ∧ t.stepBegun 0 = true ∧ t.mem = [] ∧ t.cores = [] ∧ t.accepted = [] ∧ t.held = [] ∧ t.keys = [] ∧
    t.queues = [] ∧ t.bufs = [] ∧ t.txr = [] ∧ ∀ a, 0x200000 ≤ a → a ≠ 0xA01000 → t.reg a = resetOf a

end Sys2Proof.Claims

/-- R24, R435 to R440, R446: going to sleep. An idle timer and a request enter IDLE at once and begin a deeper entry where its
conditions hold; a request whose conditions do not hold is latched and logged, and dropped by a cancel or after its time; the entries
write their state, but not while the tape moves.
The model's own readings in it: log entry 60 (DEDUCED). -/
def Obligations.PowerEntry : Prop :=
  ∀ (k : Fin 3) (target : BitVec 3) (s : State), s.canonical = true →
    let st := s.fld F.PWR_STAT.STATE
    let lat := s.fld F.PWR_STAT.LATCHED
    (s.timerOn k = false ∨ s.idle = false → exec (.idleTimerExpiry k) s = .next s) ∧
    (s.timerOn 0 = true → s.idle = true → s.pwr.trans = .none → st = 0 →
      ∃ t, exec (.idleTimerExpiry 0) s = .next t ∧ pwrAt t 1 0 ∧ OnlyRegs [0x100018] s t) ∧
    (s.timerOn 1 = true → s.maySleep .doze = true → s.pwr.trans = .none → st ≤ 1 →
      ∃ t, exec (.idleTimerExpiry 1) s = .next t ∧ pwrAt t st 0 ∧ t.pwr.trans = .entering .doze ∧ t.mem = s.mem) ∧
    (s.timerOn 2 = true → s.maySleep .nap = true → s.pwr.trans = .none → st ≤ 2 →
      ∃ t, exec (.idleTimerExpiry 2) s = .next t ∧ pwrAt t st 0 ∧ t.pwr.trans = .entering .nap ∧ t.mem = s.mem) ∧
    (s.pwr.trans = .entering .doze → s.tapeStopped = true → ∃ t, exec .dozeEntry s = .next t ∧ pwrAt t 2 lat ∧ t.pwr.trans = .closing .doze ∧
      OnlyRegs [0x100018] s { t with pwr := s.pwr }) ∧
    (s.pwr.trans = .entering .nap → s.tapeStopped = true → ∃ t, exec .napEntry s = .next t ∧ pwrAt t 3 lat ∧ t.pwr.trans = .closing .nap ∧
      t.pwr.saved.isSome = true ∧ t.pwr.qdrDropped = decide (s.fld F.PWR_CTL.QDR_POL = 1) ∧
      t.fld F.PWR_CNT.NAPS = Min.min (s.fld F.PWR_CNT.NAPS + 1) 65535 ∧ t.keys = s.keys ∧ t.aon = s.aon) ∧
    (s.tapeStopped = false → ∀ p, s.pwr.trans = .entering p → ∀ i ∈ [Instr.dozeEntry, Instr.napEntry, Instr.offEntry], exec i s = .next s) ∧
    (s.pwr.trans = .entering .off → s.tapeStopped = true → ∃ t, exec .offEntry s = .next t ∧ pwrAt t 4 lat ∧ t.pwr.trans = .closing .off ∧
      t.pwr.qdrDropped = true ∧ t.pwr.saved.isSome = true ∧ (∀ n, n < 66 → t.key n = {}) ∧ (∀ n, 66 ≤ n → t.key n = s.key n)) ∧
    (target.toNat ∈ [1, 2, 3, 4] → s.pwr.trans = .none → st ≤ 2 → st < target.toNat →
      (s.maySleep (pstateOf target.toNat) = true → ∃ t, exec (.sleepRequest target) s = .next t ∧
        (if target = 1 then pwrAt t 1 0 else pwrAt t st 0 ∧ t.pwr.trans = .entering (pstateOf target.toNat))) ∧
      (s.maySleep (pstateOf target.toNat) = false → ∃ t, exec (.sleepRequest target) s = .next t ∧ pwrAt t st target.toNat ∧
        t.pwr = s.pwr ∧ Logged s t st st 0 2)) ∧
    (2 < st → exec (.sleepRequest target) s = .next s ∧ exec .sleepCancel s = .next s) ∧
    (4 < target.toNat → st ≤ 2 → exec (.sleepRequest target) s = .next (s.raise F.PWR_STAT.CMD_REFUSED)) ∧
    (lat ≠ 0 → lat ≠ 7 → st ≤ 2 → ∃ t, exec .sleepCancel s = .next t ∧ pwrAt t st 0 ∧ OnlyRegs [0x100018] s t) ∧
    (lat = 0 → exec .sleepCancel s = .next s) ∧
    (lat ≠ 0 → lat ≠ 7 → s.pwr.trans = .none → ∃ t, exec .sleepRequestTimeout s = .next t ∧ pwrAt t st 0 ∧
      t.flag F.PWR_STAT.CMD_REFUSED = true ∧ OnlyRegs [0x100018] s t)

/-- R441 to R443, R447, R450: waking. From IDLE at once, from DOZE and NAP by an exit, with the source logged; an entry before its
point of no return is abandoned, one past it keeps the wake; a wake from OFF is a start. An access of the host wakes from IDLE and is
done; in DOZE it wakes too and is held, and done once the exit is over; in NAP and OFF none comes. The exits end in RUN, with QDR lost
where it was dropped.
The model's own readings in it: log entry 61 (DEDUCED), log entry 62 (DEDUCED), log entry 63 (DESIGN CHOICE), log entry 64 (DEDUCED). -/
def Obligations.WakeEffects : Prop :=
  ∀ (src : BitVec 10) (fn pair : FnId) (bar a len : Nat) (v : W16) (w hw : W32) (c : Chan) (grp : Group) (q : QueueId) (n : CoreId)
    (b4 : BitVec 4) (b5 : BitVec 5) (b9 : BitVec 9) (b : Bool) (p : Port) (slot : Fin 2) (l : List AlarmSource) (wr : Option (List Byte))
    (s : State), s.canonical = true →
    let st := s.fld F.PWR_STAT.STATE
    let lat := s.fld F.PWR_STAT.LATCHED
    let accesses : List Instr := [.registerWrite fn bar a len w hw, .registerReadClear fn bar a len w, .channelEnable c,
      .channelDisable c, .handoff, .calGo grp, .sbGo, .inhSw b, .inhClr, .wrcRunStop, .motRunStart, .motRunStop, .loopClose b5,
      .loopOpen b5, .motWrap b9, .cmpRunStart, .cmpRunStop, .poolRunStart, .poolRunStop, .queueEnable q, .queueDisable q, .coreStart n,
      .coreStopRequest n, .coreForceStop n, .coreSignalWrite n, .programLoad, .ldmWindowWrite v w, .cipLockFree, .cipRunStop, .secure l,
      .alarmEnableWrite b4 l, .sqDoorbell fn pair v, .cqDoorbell fn pair v, .queuePairEnable fn pair, .functionLevelReset fn,
      .hstRunStop, .bar2Access a len wr, .portTrain p, .portPark p, .serveSend, .teamRunStart, .teamRunStop, .teamSlotActivate slot,
      .aonWindowWrite v w, .wdogKick, .stickyClear b9, .flashErase b, .flashProgram b, .flashRead]
    let on (m : BitVec 10) : Nat := (src &&& m).toNat
    (s.pwr.trans = .none → st = 0 → lat = 0 → exec (.wake src) s = .next s) ∧
    (s.pwr.trans = .none → st = 1 → lat = 0 → on 0x1EF ≠ 0 → ∃ t, exec (.wake src) s = .next t ∧ pwrAt t 0 0 ∧
      t.fld F.PWR_STAT.LAST_WAKE = on 0x1EF ∧ Logged s t 1 0 (on 0x1EF) (if s.pwr.qdrDropped then 8 else 0) ∧ t.pwr = s.pwr) ∧
    (s.pwr.trans = .none → st = 2 → lat = 0 → on 0x1FF ≠ 0 → ∃ t, exec (.wake src) s = .next t ∧ pwrAt t 2 0 ∧
      t.pwr.trans = .exiting .doze ∧ Logged s t 2 0 (on 0x1FF) (if s.pwr.qdrDropped then 8 else 0)) ∧
    (s.pwr.trans = .none → st = 3 → lat = 0 → on 0x0FF ≠ 0 → ∃ t, exec (.wake src) s = .next t ∧ pwrAt t 3 0 ∧
      t.pwr.trans = .exiting .nap ∧ Logged s t 3 0 (on 0x0FF) (if s.pwr.qdrDropped then 8 else 0)) ∧
    (s.pwr.trans = .none → st = 4 → lat = 0 → on 0x012 ≠ 0 → s.boot.vioGood = true → s.boot.held = none →
      ∃ t, exec (.wake src) s = .next t ∧ Started t 3 ∧ pwrAt t 0 0) ∧
    (∀ p, s.pwr.trans = .entering p → st < 3 → lat = 0 → on 0x1FF ≠ 0 → ∃ t, exec (.wake src) s = .next t ∧ pwrAt t 0 0 ∧
      t.pwr.trans = .none ∧ t.flag F.PWR_STAT.ABANDONED = true ∧
      t.fld F.PWR_CNT.ABANDON_CNT = Min.min (s.fld F.PWR_CNT.ABANDON_CNT + 1) 65535 ∧ Logged s t st 0 (on 0x1FF) 1) ∧
    (∀ p, s.pwr.trans = .closing p → st = 2 → lat = 0 → on 0x1FF ≠ 0 → ∃ t, exec (.wake src) s = .next t ∧ pwrAt t 2 7 ∧
      t.pwr = s.pwr ∧ t.fld F.PWR_STAT.LAST_WAKE = on 0x1FF) ∧
    (∀ i ∈ accesses, (fn = 0 → bar = 0 → a = 0x100014 → i ≠ .registerWrite fn bar a len w hw) →
      (s.pwr.trans = .none → st = 1 → lat = 0 → ∃ t, exec i s = .next (t.hostEffect i) ∧ t.inRun = true ∧ pwrAt t 0 0 ∧
        t.fld F.PWR_STAT.LAST_WAKE = 0x101 ∧ t.mem = s.mem ∧ t.out = s.out) ∧
      (s.pwr.trans = .none → st = 2 → lat = 0 → ∃ t, exec i s = .next t ∧ t.hst.heldTlps = s.hst.heldTlps ++ [i] ∧
        t.pwr.trans = .exiting .doze ∧ t.mem = s.mem ∧ t.out = s.out) ∧
      (2 < st → exec i s = .next s)) ∧
    ((s.pwr.trans = .exiting .doze ∧ lat = 0) ∨ (s.pwr.trans = .closing .doze ∧ lat = 7) →
      ∃ t, pwrAt t 0 0 ∧ t.pwr.trans = .none ∧ t.mem = s.mem ∧ t.hst.heldTlps = [] ∧
        (s.hst.heldTlps = [] → exec .dozeExit s = .next t) ∧ ∀ i, s.hst.heldTlps = [i] → exec .dozeExit s = .next (t.hostEffect i)) ∧
    (s.pwr.trans = .exiting .nap → s.boot.vioGood = true → s.boot.held = none → ∀ ok, ∃ t, exec (.napExit false ok) s = .next t ∧
      Started t 4) ∧
    (s.pwr.trans = .exiting .nap → lat = 0 → s.pwr.qdrDropped = true → ∀ ok, ∃ t, exec (.napExit true ok) s = .next t ∧ pwrAt t 0 0 ∧
      t.pwr.trans = .none ∧ t.pwr.qdrDropped = false ∧ t.mem = [] ∧ t.cores = [] ∧ t.bufs = [] ∧ t.queues = [] ∧
      t.flag F.POOL_CTL.RUN = false ∧ t.flag F.PWR_STAT.QDR_DROPPED = true ∧ t.keys = s.keys) ∧
    (s.pwr.trans = .exiting .nap → lat = 0 → s.pwr.qdrDropped = false → s.checkUse s.napHandle 0 4718592 1 none = none →
      (s.bufRead s.napHandle 0 4718592).2.2 = false →
      ∃ t, exec (.napExit true true) s = .next t ∧ pwrAt t 0 0 ∧ t.pwr.trans = .none ∧ t.queues = s.queues ∧ t.bufs = s.bufs ∧
        t.keys = s.keys ∧ t.flag F.MOT_CTL.RUN = false ∧ t.flag F.PACE_CTL.EN = false ∧ t.scrubAt = 256) ∧
    (st = 3 → s.fld F.PWR_CTL.QDR_POL = 2 → s.pwr.trans ≠ .exiting .nap → lat ≠ 7 →
      exec .qdrDrop s = .next { s with pwr := { s.pwr with qdrDropped := true } }) ∧
    (st ≠ 3 ∨ s.fld F.PWR_CTL.QDR_POL ≠ 2 → exec .qdrDrop s = .next s)

/-- R17, R451, R453, R456, R457: the AON clock, the window on AON memory, and the sampler's log entry with its time, number, flags, raw
record and check.
The model's own readings in it: log entry 65 (DEDUCED). -/
def Obligations.AonClockMemoryAndSampler : Prop :=
  ∀ (temp : Int) (replies : List SensorReply) (skipped : Nat) (off : BitVec 16) (v : W32) (s : State), s.canonical = true →
    let h := s.fld F.SMP_STAT.HEAD
    (s.fld F.SMP_PERIOD.PERIOD = 0 → exec (.sample temp replies skipped) s = .next s) ∧
    (s.fld F.SMP_PERIOD.PERIOD ≠ 0 → s.fld F.PWR_STAT.STATE = 0 → s.pwr.trans = .none → s.flag F.SMP_CTL.LOG_ALL = true →
      ∃ t, exec (.sample temp replies skipped) s = .next t ∧
        (∃ e, e = t.aonBytes (0x8000 + 32 * h) 32 ∧
          natAt e 0 4 = s.aonMs / 1000 % 2 ^ 32 ∧ natAt e 4 2 = s.pwr.sampleNo % 65536 ∧
          bytesAt e 8 16 = (s.gather temp replies).2 ∧ natAt e 28 4 = (crc32c (bytesAt e 0 28)).toNat ∧ natAt e 6 1 < 128) ∧
        t.fld F.SMP_STAT.HEAD = (h + 1) % 1024 ∧ t.pwr.sampleNo = (s.pwr.sampleNo + 1 + skipped) % 65536 ∧
        (0 < skipped → t.flag F.SMP_STAT.SKIPPED = true) ∧ (s.pwr.smpFull = true → t.flag F.SMP_STAT.OVERWRITE = true)) ∧
    (∃ t, exec .aon1v8Overcurrent s = .next t ∧ t.pwr.aon1v8 = false ∧ t.pwr.supplyTripped = true ∧
      t.flag F.SMP_STAT.SUPPLY_ERR = true ∧ OnlyRegs [0x100108] s { t with pwr := s.pwr }) ∧
    (s.inRun = true → off.toNat % 4 = 0 → 0x1800 ≤ off.toNat → off.toNat < 0x1960 → s.fld F.SMP_PERIOD.PERIOD = 0 →
      ∃ t, exec (.aonWindowWrite off v) s = .next t ∧ leNat (t.aonBytes off.toNat 4) = v.toNat ∧
        (∀ a, a < off.toNat ∨ off.toNat + 4 ≤ a → t.aonBytes a 1 = s.aonBytes a 1) ∧ t.regs = s.regs) ∧
    (s.inRun = true → off.toNat % 4 = 0 → off.toNat < 0x1800 ∨ 0x1960 ≤ off.toNat ∨ s.fld F.SMP_PERIOD.PERIOD ≠ 0 →
      exec (.aonWindowWrite off v) s = .next (s.raise F.PWR_STAT.STOPPED_ONLY)) ∧
    (s.inRun = true → off.toNat % 4 ≠ 0 → exec (.aonWindowWrite off v) s = .next (s.raise F.HST_STAT.ACC_ERR)) ∧
    exec .aonXtalChangeover s = .next { s with pwr := { s.pwr with xtal := true } } ∧
    (s.pwr.xtal = true → ∃ t, exec .aonXtalLost s = .next t ∧ t.pwr.xtal = false ∧ t.keys = s.keys) ∧
    (s.pwr.xtal = false → exec .aonXtalLost s = .next s)

/-! ## Boot -/

/-- R459, R461, R471 to R473, R481 to R483: what causes a start, and of which kind: a step past its limit, which leaves its bit of
STICKY, the watchdog, RESET_N, VIN and VIO. Without VIN everything is at its reset value; a start waits for VIO.
The model's own readings in it: log entry 61 (DEDUCED), log entry 67 (DEDUCED), log entry 71 (DEDUCED). -/
def Obligations.BootStarts : Prop :=
  ∀ (n : StepId) (s : State), s.canonical = true → Orderly s →
    let up := s.boot.vinGood = true ∧ s.boot.vioGood = true ∧ s.boot.held = none
    (up → s.inStep n = true → n ≠ 4 ∨ s.hst.perstHigh = true → ∃ t, exec (.bootStepTimeout n) s = .next t ∧ Started t 2 ∧
      t.aonMs = s.aonMs ∧ (s.journalOk = true → natAt (s.aonBytes 0 64) 12 1 = s.boot.recIndex → crc60Ok s.startRecord = true →
        (natAt s.startRecord 6 2).testBit n = true → (natAt s.startRecord 8 2).testBit n = false →
        (natAt s.startRecord 10 2).testBit n = false → (t.fld F.BOOT_ALT.STICKY).testBit n = true)) ∧
    (s.inStep n = false → exec (.bootStepTimeout n) s = .next s) ∧
    (up → s.fld F.BOOT_WDOG.PERIOD ≠ 0 → ∃ t, exec .watchdogExpiry s = .next t ∧ Started t 2 ∧ t.aonMs = s.aonMs) ∧
    (s.fld F.BOOT_WDOG.PERIOD = 0 → exec .watchdogExpiry s = .next s) ∧
    (up → ∃ t, exec .resetN s = .next t ∧ Started t 1 ∧ t.aonMs = s.aonMs ∧
      t.fld F.PWR_T1.T1 = s.fld F.PWR_T1.T1 ∧ t.fld F.KEY_CTL.VOLT_EN = s.fld F.KEY_CTL.VOLT_EN) ∧
    (s.boot.vioGood = true → ∃ t, exec .vinPowerOn s = .next t ∧ Started t 0 ∧ t.aonMs = 0 ∧ t.boot.vinGood = true ∧
      ∀ a, 0x100000 ≤ a → t.reg a = resetOf a) ∧
    (∃ t, exec .vinLoss s = .next t ∧ t.boot.vinGood = false ∧ t.regs = [] ∧ t.mem = [] ∧ t.aon = [] ∧ t.cores = [] ∧ t.keys = [] ∧
      t.boot.flash = s.boot.flash ∧ t.pending = s.pending) ∧
    (up → ∃ t, exec .vioLoss s = .next t ∧ t.boot.vioGood = false ∧ t.boot.held = some 1 ∧ t.mem = [] ∧ t.cores = [] ∧
      t.stepBegun 0 = false) ∧
    (s.boot.held = none → exec .vioGood s = .next { s with boot := { s.boot with vioGood := true } }) ∧
    (∀ k, s.boot.held = some k → s.boot.vinGood = true → k < 5 → ∃ t, exec .vioGood s = .next t ∧ Started t k ∧ t.boot.held = none ∧
      t.boot.vioGood = true)

/-- R459, R460, R463, R469: a boot step that is done. It is marked done in the journal and in `BOOT_STAT` and the next begins: S1 and
S2 in turn, S2's end leaves tile memory zero, S3 with no image to use means ROM-only service, S8's end completes the start.
The model's own readings in it: log entry 67 (DEDUCED), log entry 71 (DEDUCED), log entry 72 (DEDUCED). -/
def Obligations.BootSteps : Prop :=
  ∀ (r : StepResult) (s : State), s.canonical = true → s.boot.recIndex < 62 → r.flashOk = true →
    (∀ n : StepId, s.mayEnd n = false → exec (.bootStepDone n r) s = .next s) ∧
    (s.mayEnd 0 = true → ∃ t, exec (.bootStepDone 0 r) s = .next t ∧ t.stepDone 0 = true ∧ t.stepBegun 1 = true ∧ t.mem = s.mem ∧
      (natAt t.startRecord 8 2).testBit 0 = true ∧ crc60Ok t.startRecord = true) ∧
    (s.mayEnd 1 = true → ∃ t, exec (.bootStepDone 1 r) s = .next t ∧ t.stepDone 1 = true ∧ t.stepBegun 2 = true) ∧
    (s.mayEnd 2 = true → ∃ t, exec (.bootStepDone 2 r) s = .next t ∧ t.stepDone 2 = true ∧ t.stepBegun 3 = true ∧ t.mem = [] ∧
      t.tiles = [] ∧ t.located = []) ∧
    (s.mayEnd 3 = true → s.findImage.1 = none → ∃ t, exec (.bootStepDone 3 r) s = .next t ∧ t.stepDone 3 = true ∧
      t.flag F.BOOT_STAT.ROM_ONLY = true ∧ (t.key 64).valid = true ∧ (t.key 64).key = Config.duk) ∧
    (s.mayEnd 8 = true → r.cartridge = false → ∃ t, exec (.bootStepDone 8 r) s = .next t ∧ t.stepDone 8 = true ∧
      t.flag F.BOOT_STAT.COMPLETE = true ∧ natAt t.startRecord 52 4 = s.aonMs % 2 ^ 32)

/-- R461, R462, R468, R474: clearing sticky alternates, and the boot flash through its buffer: an erased sector reads 0xFF, a program
clears bits and sets none, a read fills the buffer; the journal mirror and unaligned addresses are refused.
The model's own readings in it: log entry 7 (PRESUMED), log entry 66 (DEDUCED). -/
def Obligations.BootFlash : Prop :=
  ∀ (bits : BitVec 9) (s : State), s.canonical = true → s.inRun = true → Orderly s →
    let a := s.fld F.BOOT_FL_ADDR.ADDR
    let refused (i : Instr) : Prop := exec i s = .next (s.raise F.BOOT_STAT.FL_REFUSED)
    exec .wdogKick s = .next s ∧
    (∃ t, exec (.stickyClear bits) s = .next t ∧
      (∀ k, k < 9 → (t.fld F.BOOT_ALT.STICKY).testBit k = ((s.fld F.BOOT_ALT.STICKY).testBit k && !bits.getLsbD k)) ∧
      natAt (t.aonBytes 0 64) 6 2 = t.fld F.BOOT_ALT.STICKY ∧ t.boot = s.boot) ∧
    (0x40000 ≤ a → a % 4096 = 0 → ∃ t, exec (.flashErase true) s = .next t ∧ t.flashBytes a 4096 = List.replicate 4096 0xFF ∧
      (∀ b, b < a ∨ a + 4096 ≤ b → t.flashBytes b 1 = s.flashBytes b 1) ∧ t.regs = s.regs) ∧
    (0x40000 ≤ a → a % 4096 = 0 → ∃ t, exec (.flashErase false) s = .next t ∧ t.flag F.BOOT_STAT.FLASH_ERR = true ∧
      ∀ b, b < a ∨ a + 4096 ≤ b → t.flashBytes b 1 = s.flashBytes b 1) ∧
    (a < 0x40000 ∨ a % 4096 ≠ 0 → ∀ ok, refused (.flashErase ok)) ∧
    (0x40000 ≤ a → a % 256 = 0 → ∃ t, exec (.flashProgram true) s = .next t ∧
      t.flashBytes a 256 = List.zipWith (· &&& ·) (s.flashBytes a 256) s.flashBuffer ∧
      (∀ b, b < a ∨ a + 256 ≤ b → t.flashBytes b 1 = s.flashBytes b 1) ∧ t.regs = s.regs) ∧
    (a < 0x40000 ∨ a % 256 ≠ 0 → ∀ ok, refused (.flashProgram ok)) ∧
    (a % 256 = 0 → ∃ t, exec .flashRead s = .next t ∧ t.flashBuffer = s.flashBytes a 256 ∧ t.boot.flash = s.boot.flash ∧
      t.regs = s.regs) ∧
    (a % 256 ≠ 0 → refused .flashRead)

/-! ## Reading and writing tape -/

namespace Sys2Proof.Claims

/-- Only read channel `k`, the registers at the listed offsets and the draw of free values differ. -/
def OnlyRchan (k : Nat) (l : List Nat) (s t : State) : Prop :=
  t = { s with regs := t.regs, rchans := t.rchans, freeCtr := t.freeCtr } ∧ (∀ a, a ∉ l → t.reg a = s.reg a) ∧
    ∀ j, j ≠ k → t.rchan j = s.rchan j

/-- Only write channel `k` and the registers at the listed offsets differ, but for what leaves the block. -/
def OnlyWchan (k : Nat) (l : List Nat) (s t : State) : Prop :=
  t = { s with regs := t.regs, out := t.out, wrc := { s.wrc with chans := t.wrc.chans } } ∧
    (∀ a, a ∉ l → t.reg a = s.reg a) ∧ ∀ j, j ≠ k → t.wchan j = s.wchan j

/-- The loop values of a channel as its registers hold them: gain, boost, offset, asymmetry and taps (R132). -/
def LoopsAt (s : State) (k gain boost offset asym : Nat) (tap : Nat → Nat) : Prop :=
  s.fld F.RDC_GAIN_CTL.GAIN k = gain ∧ s.fld F.RDC_CTF_CTL.BOOST k = boost ∧ s.fld F.RDC_BIAS_CTL.OFFSET k = offset ∧
    s.fld F.RDC_BIAS_CTL.ASYM k = asym ∧ ∀ e, e < 16 → s.fld (F.RDC_FIR_TAP.TAP e) k = tap e

/-- A channel uses the values of a zone, or the reset values where that has no valid entry (R131, R132). -/
def UsesZone (s t : State) (k : Nat) (z : Option Nat) : Prop :=
  (s.zoneValid k z = false → t.flag F.RDC_CH_CTL.CAL_DEFAULT k = true ∧
    LoopsAt t k 0x30 0x0C 0 0 (fun e => if e = 6 then 0x400 else 0)) ∧
  ∀ x, z = some x → s.zoneValid k z = true →
    let b := s.zoneEntry k x
    t.flag F.RDC_CH_CTL.CAL_DEFAULT k = false ∧
      LoopsAt t k (Min.min 144 (natAt b 0 1)) (Min.min 24 (natAt b 1 1)) (natAt b 2 2 % 1024) (natAt b 4 2 % 1024)
        (fun e => natAt b 8 24 / 2 ^ (12 * e) % 4096)

/-- One more, up to the all-ones value of a counter of `w` bits (R112, R342). -/
def up (w n : Nat) : Nat := Min.min (n + 1) (2 ^ w - 1)

end Sys2Proof.Claims

/-- R113, R116 to R119, R128, R131, R133, R135, R136, R139, R144, R178, R210: the samples that a channel hears, and what it does with
them at a leading guard, a mini-preamble, a change of lock, the end of a long defect, a resume mark and a capture; a channel that does not
listen does nothing. `h` is the state once the samples are heard.
The model's own readings in it: log entry 40 (DESIGN CHOICE), log entry 44 (DEDUCED), log entry 75 (DEDUCED),
log entry 95 (DEDUCED). -/
def Obligations.ReadTiming : Prop :=
  ∀ (c : Chan) (lpos : Nat) (adc : List Byte) (s : State), s.canonical = true → Orderly s →
    let k := c.val
    let q := s.rchan k
    let h := s.hear k adc
    let r := h.rchan k
    let w := s.fld F.MOT_WRAP.W
    let z := zoneOf w lpos
    let others (t : State) : Prop := ∀ j, j ≠ k → t.rchan j = s.rchan j
    (s.listens k = false → ∀ i ∈ [Instr.battenGuard c adc, Instr.miniPreambleRestore c adc, Instr.timingLock c adc,
      Instr.timingLockLoss c adc, Instr.longDefectEnd c adc, Instr.resumeMarkSearch c lpos adc], exec i s = .next s) ∧
    (s.listens k = true →
      others h ∧ r.adcCount = q.adcCount + adc.length ∧
      (ratAbs q.freq ≤ 15 / 1000 → ratAbs r.freq ≤ 15 / 1000) ∧
      (q.inGuard = true → (h.srvChan k).stretch =
        (adc.take (8192 - (s.srvChan k).stretch.length)).reverse.map BitVec.toInt ++ (s.srvChan k).stretch) ∧
      (q.inGuard = true → exec (.battenGuard c adc) s = .next s) ∧
      (q.inGuard = false → ∃ t, exec (.battenGuard c adc) s = .next t ∧ (t.rchan k).savedPhase = r.phase ∧
        (t.rchan k).savedFreq = r.freq ∧ (t.rchan k).inGuard = true ∧ (t.rchan k).heard = r.heard ∧ (t.rchan k).young = r.young ∧
        (t.rchan k).tail = bitsUntil r.adcCount r.phase (s.loopStep r.freq) + 6 ∧ t.flag F.RDC_CH_STAT.FROZEN k = true ∧
        t.flag F.RDC_CH_STAT.LOCK k = h.flag F.RDC_CH_STAT.LOCK k ∧ (t.srvChan k).stretch = [] ∧ (t.srvChan k).ready = false ∧
        (t.srvChan k).stretchAt = r.adcCount ∧ others t) ∧
      (q.inGuard = false → exec (.miniPreambleRestore c adc) s = .next s) ∧
      (q.inGuard = true → ∃ t, exec (.miniPreambleRestore c adc) s = .next t ∧
        (let step := s.loopStep r.savedFreq
         (t.rchan k).phase = phaseOf (r.savedPhase + (bitsUntil r.adcCount r.savedPhase step : Rat) * step)) ∧
        (t.rchan k).freq = r.savedFreq ∧ (t.rchan k).inGuard = false ∧ t.flag F.RDC_CH_STAT.FROZEN k = false ∧
        ((nearest (2000000 * r.savedFreq)).natAbs < 32768 → t.sfld F.RDC_CH_STAT.FREQ k = nearest (2000000 * r.savedFreq)) ∧
        (t.srvChan k).ready = true ∧ (t.srvChan k).stretch = (h.srvChan k).stretch ∧
        (∃ g l, (t.rchan k).heard = g :: l ∧ g.bits = [] ∧ g.num = r.nextNum ∧
          ∀ x ∈ l, ∃ y ∈ r.heard, x.num = y.num ∧ x.start = y.start ∧ y.bits.length ≤ x.bits.length) ∧ others t) ∧
      (∀ m, r.perrSquare = some m → m < 1 / 64 → exec (.timingLock c adc) s = .next (h.setFlag F.RDC_CH_STAT.LOCK true k)) ∧
      ((∀ m, r.perrSquare = some m → 1 / 64 ≤ m) → exec (.timingLock c adc) s = .next h) ∧
      (256 ≤ r.clampRun → exec (.timingLockLoss c adc) s = .next (h.setFlag F.RDC_CH_STAT.LOCK false k)) ∧
      (r.clampRun < 256 → exec (.timingLockLoss c adc) s = .next h) ∧
      (r.defEnded ≤ 4096 → exec (.longDefectEnd c adc) s = .next h) ∧
      (4096 < r.defEnded → exec (.longDefectEnd c adc) s = .next (h.setRchan k { r with acqLeft := 256, defEnded := 0 })) ∧
      (s.dataSpeed = false → exec (.resumeMarkSearch c lpos adc) s = .next s) ∧
      (s.dataSpeed = true → q.calStop = true → exec (.resumeMarkSearch c lpos adc) s = .next (s.setRchan k { q with calOff := true })) ∧
      (s.dataSpeed = true → q.calStop = false → ∃ t, exec (.resumeMarkSearch c lpos adc) s = .next t ∧ (t.rchan k).zone = some z ∧
        (t.rchan k).segments = r.segments + 1 ∧ (t.rchan k).wrap = w ∧ (t.rchan k).lpos = lpos ∧
        (t.fld F.RDC_CH_CNT0.RM_MISS k = if h.resumeMark k = none then up 16 (h.fld F.RDC_CH_CNT0.RM_MISS k)
          else h.fld F.RDC_CH_CNT0.RM_MISS k) ∧
        (∀ g l, r.heard = g :: l → (t.rchan k).heard =
          { g with base := 40 + (match h.resumeMark k with | some m => m.off | none => 0), wrap := w, lpos := lpos } :: l) ∧
        (lpos = segLpos w 0 → h.flag F.RDC_CH_STAT.HUNT k = false → ∀ g l, r.heard = g :: l → (t.rchan k).pred = some (g.num, 0)) ∧
        (lpos ≠ segLpos w 0 → r.zone.isSome = true → r.wrap ≠ w ∨ lpos ≠ nextLpos w r.lpos →
          t.flag F.RDC_CH_STAT.HUNT k = true ∧ (t.rchan k).pred = none) ∧
        (s.adaptive = false → h.flag F.RDC_CH_STAT.ADAPTIVE k = false → r.zone ≠ some z → UsesZone h t k (some z)) ∧ others t)) ∧
    (s.loopsOut k = false → s.boundCheck k = s) ∧
    (s.loopsOut k = true → (s.boundCheck k).flag F.RDC_STAT.ADAPT_BOUND = true ∧ UsesZone s (s.boundCheck k) k q.zone) ∧
    (∀ y, q.zone = some y → s.clocked = true → s.chanOn k = true → s.flag F.RDC_CFG.CAPTURE = true → s.adaptive = true →
      s.flag F.RDC_CH_STAT.FROZEN k = false → q.segments % 4096 = 0 → ∃ t, exec (.zoneCapture c) s = .next t ∧
        t.zoneEntry k y = s.entryOf k ∧ OnlyRegs ((List.range 8).map fun j => zoneAddr k y + 4 * j) s t) ∧
    (s.chanOn k = false ∨ s.flag F.RDC_CFG.CAPTURE = false ∨ s.adaptive = false ∨ s.flag F.RDC_CH_STAT.FROZEN k = true ∨
      q.segments % 4096 ≠ 0 ∨ q.zone = none ∨ s.clocked = false → exec (.zoneCapture c) s = .next s)

/-- R130, R131, R137, R138, R145, R147, R149, R150, R154: channels enabled and disabled, the hand-off, and calibration outside boot; the
first group that fails in boot step S6 becomes the dark group.
The model's own readings in it: log entry 44 (DEDUCED). -/
def Obligations.ReadControl : Prop :=
  ∀ (c : Chan) (grp : Group) (ok : Bool) (lpos : Nat) (s : State), s.canonical = true → Orderly s → s.afeHeld = false →
    let k := c.val
    let g := grp.val
    let r := s.rchan k
    let settled (j : Nat) : Bool :=
      (s.fld F.RDC_STAT.CAL_DONE).testBit (j / 4) || (s.fld F.RDC_CAL_FAIL.CAL_FAILED).testBit (j / 4)
    (s.inRun = true → s.chanOn k = true ∨ s.darkGroup = some (k / 4) → exec (.channelEnable c) s = .next s) ∧
    (s.inRun = true → s.chanOn k = false → s.darkGroup ≠ some (k / 4) →
      (s.adaptive = false → 16 ≤ s.chansOn.length → exec (.channelEnable c) s = .next (s.raise F.RDC_STAT.TOO_MANY)) ∧
      (s.adaptive = true ∨ s.chansOn.length < 16 → ∃ t, exec (.channelEnable c) s = .next t ∧ t.chanOn k = true ∧
        t.rchan k =
          { zone := if s.adaptive then r.zone else none, cutoff := r.cutoff, segments := r.segments, wrap := r.wrap, lpos := r.lpos,
            framed := r.framed, nextNum := r.nextNum, adcCount := s.now, acqFirst := true,
            handoffPending := s.handingOff || r.handoffPending } ∧
        t.flag F.RDC_CH_STAT.HUNT k = true ∧
        (s.adaptive = true → t.flag F.RDC_CH_STAT.ADAPTIVE k = true ∧ UsesZone s t k r.zone) ∧
        (∀ j, j < 64 → j ≠ k → t.chanOn j = s.chanOn j ∧ t.rchan j = s.rchan j))) ∧
    (s.inRun = true → ∃ t, exec (.channelDisable c) s = .next t ∧ t.chanOn k = false ∧
      t.rchan k =
        { adcCount := r.adcCount, cutoff := r.cutoff, zone := r.zone, segments := r.segments, wrap := r.wrap, lpos := r.lpos,
          calStop := r.calStop, calOff := r.calOff, nextNum := r.nextNum } ∧
      (∀ f ∈ [F.RDC_CH_STAT.LOCK, F.RDC_CH_STAT.HUNT, F.RDC_CH_STAT.ADAPTIVE, F.RDC_CH_STAT.FROZEN], t.flag f k = false) ∧
      t.battenLock k = false ∧ t.wchan k = { s.wchan k with goodBattens := 0, anchors := [] } ∧
      t.srvChan k = { track := (s.srvChan k).track, pes := (s.srvChan k).pes } ∧ t.mem = s.mem ∧ t.out = s.out ∧
      ∀ j, j ≠ k → t.rchan j = s.rchan j ∧ t.wchan j = s.wchan j ∧ t.srvChan j = s.srvChan j) ∧
    (s.inRun = true → s.adaptive = true ∨ (∃ j, j < 64 ∧ s.chanOn j = true ∧ settled j = false) →
      exec .handoff s = .next (s.raise F.RDC_STAT.CMD_REFUSED)) ∧
    (s.inRun = true → s.adaptive = false → (∀ j, j < 64 → s.chanOn j = true → settled j = true) → ∃ t, exec .handoff s = .next t ∧
      (∀ j, (t.rchan j).handoffPending = ((decide (j < 64) && s.chanOn j) || (s.rchan j).handoffPending)) ∧
      (if s.chansOn = [] then t.flag F.RDC_STAT.HANDOFF_DONE = true ∧ t.fld F.RDC_CFG.MODE = 1
        else t.flag F.RDC_STAT.HANDOFF_DONE = false ∧ t.fld F.RDC_CFG.MODE = s.fld F.RDC_CFG.MODE)) ∧
    (s.chanOn k = false ∨ r.handoffPending = false ∨ s.clocked = false → exec (.handoffChannelSwitch c lpos) s = .next s) ∧
    (s.clocked = true → s.chanOn k = true → r.handoffPending = true → ∃ t, exec (.handoffChannelSwitch c lpos) s = .next t ∧
      t.rchan k = { r with zone := some (zoneOf (s.fld F.MOT_WRAP.W) lpos), handoffPending := false } ∧
      t.flag F.RDC_CH_STAT.ADAPTIVE k = true ∧ UsesZone s t k (some (zoneOf (s.fld F.MOT_WRAP.W) lpos)) ∧
      (s.flag F.RDC_STAT.HANDOFF_DONE = false → (∀ j, j < 64 → j ≠ k → s.chanOn j = true → (s.rchan j).handoffPending = false) →
        t.flag F.RDC_STAT.HANDOFF_DONE = true ∧ t.fld F.RDC_CFG.MODE = 1) ∧
      ((∃ j, j < 64 ∧ j ≠ k ∧ s.chanOn j = true ∧ (s.rchan j).handoffPending = true) → t.fld F.RDC_CFG.MODE = s.fld F.RDC_CFG.MODE)) ∧
    (s.inRun = true → s.flag F.RDC_STAT.CAL_BUSY = true ∨ s.flag F.WRC_STAT.WRITING = true ∨ s.darkGroup = some g →
      exec (.calGo grp) s = .next (s.raise F.RDC_STAT.CMD_REFUSED)) ∧
    (s.inRun = true → s.flag F.RDC_STAT.CAL_BUSY = false → s.flag F.WRC_STAT.WRITING = false → s.darkGroup ≠ some g →
      ∃ t, exec (.calGo grp) s = .next t ∧ t.calib = [g] ∧ t.flag F.RDC_STAT.CAL_BUSY = true ∧
        (∀ j, t.rchan j = if j / 4 = g then { s.rchan j with calStop := true } else s.rchan j) ∧
        OnlyRegs [0xD40018] s { t with calib := s.calib, rchans := s.rchans }) ∧
    (g ∉ s.calib ∨ s.clocked = false → exec (.calibrationDone grp ok) s = .next s) ∧
    (s.clocked = true → g ∈ s.calib → s.inStep 6 = false → ∃ t, exec (.calibrationDone grp ok) s = .next t ∧ t.calib = s.calib.erase g ∧
      t.flag F.RDC_STAT.CAL_BUSY = !(s.calib.erase g).isEmpty ∧ (t.fld F.RDC_STAT.CAL_DONE).testBit g = ok ∧
      (t.fld F.RDC_CAL_FAIL.CAL_FAILED).testBit g = !ok ∧ t.flag F.RDC_STAT.CAL_FAIL = !ok ∧
      ∀ j, j / 4 = g → (t.rchan j).calStop = false ∧ (t.rchan j).calOff = false ∧
        (s.chanOn j = true → t.flag F.RDC_CH_STAT.HUNT j = true)) ∧
    (∀ u : State, u.canonical = true → Orderly u → u.clocked = true → g ∈ u.calib → u.inStep 6 = true → u.flag F.RDC_CFG.DARK_EN = false →
      ∃ t, exec (.calibrationDone grp false) u = .next t ∧ t.flag F.RDC_CFG.DARK_EN = true ∧ t.fld F.RDC_CFG.DARK_GRP = g ∧
        t.flag F.RDC_STAT.CAL_FAIL = true ∧ (t.fld F.RDC_CAL_FAIL.CAL_FAILED).testBit g = true ∧ ∀ j, j / 4 = g → t.chanOn j = false)

/-- R97, R98, R102, R105, R106, R109, R125, R140 to R144, R149, R319: a course framed by the marks and headers in the sample history, its
copy decoded while that holds it, a yealm's result, and READ. `h` is the state once the samples are heard.
The model's own readings in it: log entry 41 (DEDUCED), log entry 43 (DESIGN CHOICE), log entry 44 (DEDUCED), log entry 95 (DEDUCED). -/
def Obligations.CourseReading : Prop :=
  ∀ (c : Chan) (adc : List Byte) (gaps : List (List Byte)) (y i : Nat) (m : Cmd) (s : State), s.canonical = true →
    let k := c.val
    let h := s.hear k adc
    let r := h.rchan k
    let ext := h.defExt k
    let gone (u t : State) (p : Nat × Nat) (hunt : Bool) : Prop :=
      (∃ x, (t.rchan k).framed = (u.rchan k).framed ++ [x] ∧ x.erased = true ∧ x.bit = p.2) ∧
        t.fld F.RDC_CH_CNT1.ERASED k = up 8 (u.fld F.RDC_CH_CNT1.ERASED k) ∧
        t.flag F.RDC_CH_STAT.HUNT k = (hunt || u.flag F.RDC_CH_STAT.HUNT k) ∧
        (t.rchan k).pred = (if hunt then none else some (nextCourse p)) ∧
        OnlyRchan k [0xD00014 + 0x1000 * k, 0xD00020 + 0x1000 * k] u t
    let on (t : State) (p : Nat × Nat) (v : W64) (lost : Bool) (place : CourseAt) : Prop :=
      (∃ x, (t.rchan k).framed = r.framed ++ [x] ∧ x.hdr = v ∧ x.part1Lost = lost ∧ x.erased = false ∧ x.bit = p.2 ∧ x.place = place) ∧
        (t.rchan k).pred = some (nextCourse p)
    let copied (u t : State) (x : Framed) (pass : Bool) (corr : Nat) (d : List Byte) : Prop :=
      t.fmt.copies = u.fmt.copies ++ [⟨k, x.hdr, pass, corr, d, u.fmt.nextOrder, x.wrap, x.lpos, x.bit⟩] ∧
        t.fmt.nextOrder = u.fmt.nextOrder + 1 ∧ t.fld F.FMT_CODE_CNT0.C1_FAIL =
          (if pass then u.fld F.FMT_CODE_CNT0.C1_FAIL else up 16 (u.fld F.FMT_CODE_CNT0.C1_FAIL))
    (s.chanOn k = false ∨ s.clocked = false → exec (.courseFrame c adc) s = .next s) ∧
    (s.clocked = true → s.chanOn k = true → (s.rchan k).calOff = true →
      ((s.rchan k).pred = none → exec (.courseFrame c adc) s = .next s) ∧
      (∀ p, (s.rchan k).pred = some p → ∃ t, exec (.courseFrame c adc) s = .next t ∧ gone s t p false)) ∧
    (s.clocked = true → s.chanOn k = true → (s.rchan k).calOff = false → s.dataSpeed = false →
      exec (.courseFrame c adc) s = .next h) ∧
    (s.clocked = true → s.chanOn k = true → (s.rchan k).calOff = false → s.dataSpeed = true → h.flag F.RDC_CH_STAT.HUNT k = true →
      (r.hunted ext = none → exec (.courseFrame c adc) s = .next h) ∧
      (∀ p x z, r.hunted ext = some (p, x, z) →
        let q := courseAt p 0
        let b := headerPasses (r.header ext (q.bySecond z.off) 970)
        ∀ v, headerPasses (r.header ext q 80) = some v → b = none ∨ b = some v →
          ∃ t, exec (.courseFrame c adc) s = .next t ∧ on t p v false ((q.byFirst x.off).bySecond z.off) ∧
            t.flag F.RDC_CH_STAT.HUNT k = false)) ∧
    (s.clocked = true → s.chanOn k = true → (s.rchan k).calOff = false → s.dataSpeed = true → h.flag F.RDC_CH_STAT.HUNT k = false →
      (r.pred = none → exec (.courseFrame c adc) s = .next h) ∧
      (∀ p, r.pred = some p → r.courseDue p = false → exec (.courseFrame c adc) s = .next h) ∧
      (∀ p, r.pred = some p → r.courseDue p = true →
        let q := courseAt p r.shift
        let m1 := r.firstMark ext q 8 3
        let a := m1.bind fun x => headerPasses (r.header ext (q.byFirst x.off) 80)
        let m2 := r.findSecond ext q m1 a.isSome
        let b := m2.bind fun z => headerPasses (r.header ext (q.bySecond z.off) 970)
        (∀ x z v, m1 = some x → m2 = some z → a = some v → b = some v ∨ b = none → ∃ t, exec (.courseFrame c adc) s = .next t ∧
          on t p v false ((q.byFirst x.off).bySecond z.off) ∧ (t.rchan k).shift = (if q.whole then r.shift + z.off else z.off) ∧
          OnlyRchan k [] h t) ∧
        (∀ v v', a = some v → b = some v' → v ≠ v' → ∃ t, exec (.courseFrame c adc) s = .next t ∧ gone h t p false) ∧
        (∀ x v, m1 = some x → m2 = none → a = some v → ∃ t, exec (.courseFrame c adc) s = .next t ∧
          on t p v false { q.byFirst x.off with off2 := q.off2 + x.off } ∧ (t.rchan k).shift = r.shift + x.off ∧ OnlyRchan k [] h t) ∧
        (∀ z v, m2 = some z → a = none → b = some v → ∃ t lost, exec (.courseFrame c adc) s = .next t ∧
          on t p v lost (q.reframed z.off) ∧ (t.rchan k).shift = (if q.whole then r.shift + z.off else z.off) ∧
          t.fld F.RDC_CH_CNT1.SM_ALIGN k = up 8 (h.fld F.RDC_CH_CNT1.SM_ALIGN k) ∧
          (lost = false → t.fld F.RDC_CH_CNT1.REFRAME_OK k = up 8 (h.fld F.RDC_CH_CNT1.REFRAME_OK k)) ∧
          (lost = true → t.fld F.RDC_CH_CNT1.REFRAME_FAIL k = up 8 (h.fld F.RDC_CH_CNT1.REFRAME_FAIL k))) ∧
        (m1.isSome = true → m2.isSome = true → a = none → b = none →
          ∃ t, exec (.courseFrame c adc) s = .next t ∧ gone h t p false) ∧
        (m1 = none ∨ m2 = none → a = none → b = none → ∃ t, exec (.courseFrame c adc) s = .next t ∧ gone h t p true))) ∧
    ((s.rchan k).framed = [] ∨ s.clocked = false → exec (.c1Decode c gaps) s = .next s) ∧
    (∀ x l, s.clocked = true → (s.rchan k).framed = x :: l →
      (x.erased = true → ∃ t, exec (.c1Decode c gaps) s = .next t ∧ copied s t x false 0 [] ∧ (t.rchan k).framed = l) ∧
      (x.erased = false → s.copyHeard k x.place = false → s.copyComing k x.place = true → s.listens k = true →
        exec (.c1Decode c gaps) s = .next (s.hear k (gaps.headD []))) ∧
      (x.erased = false → s.copyHeard k x.place = true ∨ s.copyComing k x.place = false ∨ s.listens k = false →
        (∀ u, s.decodeCopy k x gaps = (u, none) → ∃ t, exec (.c1Decode c gaps) s = .next t ∧ copied u t x false 0 [] ∧
          (t.rchan k).framed = (u.rchan k).framed.drop 1) ∧
        (∀ u d n, s.decodeCopy k x gaps = (u, some (d, n)) → ∃ t, exec (.c1Decode c gaps) s = .next t ∧ copied u t x true n d ∧
          (t.rchan k).framed = (u.rchan k).framed.drop 1) ∧
        (gaps = [] → s.copyHeld k x.place = false → s.decodeCopy k x gaps = (s, none)))) ∧
    ((s.seenOf y = [] ∧ s.copiesOf y = []) ∨ s.yealmDelivered y = true ∨ s.clocked = false → exec (.yealmDecode y) s = .next s) ∧
    (s.clocked = true → s.seenOf y ≠ [] ∨ s.copiesOf y ≠ [] → s.yealmDelivered y = false →
      ((s.runC2 y).2.failed = [] → ∃ t, exec (.yealmDecode y) s = .next t ∧ t.decodedOf y = some (s.runC2 y).2 ∧ y ∉ t.fmt.waiting) ∧
      ((s.runC2 y).2.failed ≠ [] → ∃ t, exec (.yealmDecode y) s = .next t ∧ y ∈ t.fmt.waiting ∧ t.fmt.decoded = s.fmt.decoded ∧
        t.regs = (s.runC2 y).1.regs)) ∧
    (y ∉ s.fmt.waiting ∨ s.clocked = false → exec (.c2Retry y) s = .next s) ∧
    (s.clocked = true → y ∈ s.fmt.waiting → ∃ t, exec (.c2Retry y) s = .next t ∧ t.decodedOf y = some (s.runC2 y).2 ∧
      y ∉ t.fmt.waiting ∧ t.regs = (if s.laterSeen y then (s.runC2 y).1.regs else s.regs)) ∧
    (Starts s 2 i 4 m →
      let u := s.start m
      let noted (x : State) : State :=
        { x with mot := { x.mot with
            ylmBufs := (taHandle (dA m.desc)).toNat :: x.mot.ylmBufs.filter (· != (taHandle (dA m.desc)).toNat) } }
      ((dArg m.desc).testBit 8 ≠ decide (quadBase ≤ dC m.desc) ∨ (s.sealOf (dC m.desc)).isNone = true →
        exec (.read i) s = .next (u.finish m 0x0010)) ∧
      (∀ d, (dArg m.desc).testBit 8 = decide (quadBase ≤ dC m.desc) → (s.sealOf (dC m.desc)).isSome = true →
        s.decodedOf (dC m.desc) = some d → dB m.desc = noAddress →
        (∀ e, s.yealmCheck m (dA m.desc) (245760 * d.n) true = some e → exec (.read i) s = .next (u.finish m e)) ∧
        (s.yealmCheck m (dA m.desc) (245760 * d.n) true = none → d.failed = [] → exec (.read i) s =
          .next ((noted (u.taWritePieces (dA m.desc) ((List.range (240 * d.n)).map fun j =>
            (d.data.get (fun _ => noCourse) j, false)))).finish m 0 (2 * d.mixed.toNat)))) ∧
      ((dArg m.desc).testBit 8 = decide (quadBase ≤ dC m.desc) → (s.sealOf (dC m.desc)).isSome = true →
        s.decodedOf (dC m.desc) = none → dC m.desc ∉ s.fmt.waiting → s.seenOf (dC m.desc) = [] → s.copiesOf (dC m.desc) = [] →
        exec (.read i) s = .next (u.readOut m (s.unseen (dC m.desc)))) ∧
      ((dArg m.desc).testBit 8 = decide (quadBase ≤ dC m.desc) → (s.sealOf (dC m.desc)).isSome = true →
        s.decodedOf (dC m.desc) = none →
        dC m.desc ∈ s.fmt.waiting ∨ s.seenOf (dC m.desc) ≠ [] ∨ s.copiesOf (dC m.desc) ≠ [] → exec (.read i) s = .next s))

namespace Sys2Proof.Claims

/-- WRC may start a write (R163, R467): RUN, adaptive mode, every channel outside the dark group enabled, boot step S8 done. -/
def MayWrite (s : State) : Prop :=
  s.flag F.WRC_CTL.RUN = true ∧ s.fld F.RDC_CFG.MODE = 1 ∧ (∀ c ∈ s.activeList, s.flag F.RDC_CH_CTL.EN c = true) ∧
    s.stepDone 8 = true

/-- A SEAL ends at its checks: nothing is written, what it holds up is remembered with its status (R423), and the groups of the program
set from the one that it was to seal on fail (R339). -/
def SealRefused (s t : State) (m : Cmd) (st : W16) : Prop :=
  t.held = s.held ++ [⟨completionItem 2 3 false st 0 0 (dTag m.desc), m⟩] ∧ t.fmt.seals = s.fmt.seals ∧
    t.fmt.sealFailed = s.fmt.sealFailed ++ [(m.txn, st)] ∧ t.mem = s.mem ∧
    ((∀ g ∈ s.hst.closed, g.seq ≠ m.txSeq) → t.wrc = s.wrc ∧ t.hst = s.hst) ∧
    ((∃ g ∈ s.hst.closed, g.seq = m.txSeq) → t.hst.closed = s.hst.closed.filter (fun g => decide (g.seq < m.txSeq)) ∧
      ∀ w ∈ t.hst.waiting, m.txSeq ≤ w.seq → w.due = true)

end Sys2Proof.Claims

/-- R51, R69, R101, R103, R163, R256, R319 to R321: ENCODE writes the parity positions and adds the yealm into the C3 accumulator, and
counts it for pace; WRITE and SEAL are taken up once their checks pass, and end with the status of the first check that fails, which a
group of the program set that lies behind them ends with too.
The model's own readings in it: log entry 35 (DEDUCED), log entry 37 (DEDUCED), log entry 41 (DEDUCED), log entry 93 (DESIGN CHOICE),
log entry 106 (DESIGN CHOICE). -/
def Obligations.FormatterCommands : Prop :=
  ∀ (i : Nat) (m : Cmd) (s : State),
    let u := s.start m
    let arg := dArg m.desc
    let n := arg % 128
    let a := dA m.desc
    let b := dB m.desc
    let b' := mkTa (taHandle b) (taOff b + 0x1000000)
    (Starts s 2 i 1 m →
      ((n ≠ 16 ∧ n ≠ 60 ∧ n ≠ 64) ∨ (n = 16 ∧ arg.testBit 8 = false) → exec (.encode i) s = .next (u.finish m 0x0010)) ∧
      (n = 60 ∨ n = 64 ∨ (n = 16 ∧ arg.testBit 8 = true) →
        (hClass (taHandle a) < 6 → exec (.encode i) s = .next (u.finish m 0x0010)) ∧
        (∀ e, s.yealmCheck m a (245760 * n) true = some e → exec (.encode i) s = .next (u.finish m e)) ∧
        (s.yealmCheck m a (245760 * n) true = none →
          let r := u.taRead a (229376 * n)
          let par := yealmParity n r.2.1
          let w := r.1.taWrite (mkTa (taHandle a) (taOff a + 229376 * n)) par false
          let share := c3Share (dC m.desc % 16)
          let add0 := (r.2.1 ++ par).map (gfMul share.1)
          let add1 := (r.2.1 ++ par).map (gfMul share.2)
          let bothOk := s.accCheck m b (245760 * n) = none ∧ s.accCheck m b' (245760 * n) = none
          (arg.testBit 8 = true → r.2.2 = true → exec (.encode i) s = .next (r.1.finish m 0x0020)) ∧
          (arg.testBit 8 = true → r.2.2 = false → exec (.encode i) s = .next (w.encoded.finish m 0)) ∧
          (arg.testBit 8 = false → ∀ e, s.accCheck m b (245760 * n) = some e → exec (.encode i) s = .next (u.finish m e)) ∧
          (arg.testBit 8 = false → arg.testBit 7 = true → bothOk → r.2.2 = false → exec (.encode i) s =
              .next (((w.taWrite b add0 false).taWrite b' add1 false).encoded.finish m 0)) ∧
          (arg.testBit 8 = false → arg.testBit 7 = false → bothOk → s.busErr = false → r.2.2 = false →
            let o := w.taRead b add0.length
            let v := o.1.taWritePieces b (addPieces (o.1.taPieces b add0.length) add0)
            let o' := v.taRead b' add1.length
            let z := o'.1.taWritePieces b' (addPieces (o'.1.taPieces b' add1.length) add1)
            (o.2.2 = false → o'.2.2 = false → exec (.encode i) s = .next (z.encoded.finish m 0)) ∧
            (o.2.2 = true ∨ o'.2.2 = true → exec (.encode i) s = .next (z.finish m 0x0020 0 0 true))) ∧
          (arg.testBit 8 = false → arg.testBit 7 = false → bothOk → s.busErr = true →
            let o := u.taRead b (245760 * n)
            let o' := o.1.taRead b' (245760 * n)
            o.2.2 = true ∨ o'.2.2 = true → exec (.encode i) s = .next (o'.1.finish m 0x0020))))) ∧
    (Starts s 2 i 2 m →
      let quad := arg.testBit 8
      let y := dC m.desc
      let r := u.taRead a (245760 * n)
      let no (x : State) (st : W16) : Res := .next ((x.dataFault y st).finish m st)
      (n ≠ (if quad then 16 else s.activeList.length) ∨ quad ≠ decide (quadBase ≤ y) ∨ 2 ^ 28 ≤ y → exec (.write i) s = no u 0x0010) ∧
      (n = (if quad then 16 else s.activeList.length) → quad = decide (quadBase ≤ y) → y < 2 ^ 28 →
        (hClass (taHandle a) < 6 → exec (.write i) s = no u 0x0010) ∧
        (∀ e, s.yealmCheck m a (245760 * n) false = some e → exec (.write i) s = no u e) ∧
        (s.yealmCheck m a (245760 * n) false = none →
          (¬MayWrite s → exec (.write i) s = no u 0x0003) ∧
          (MayWrite s → quad = false → s.selector = none → exec (.write i) s = no u 0x0010) ∧
          (∀ sel table, MayWrite s → (if quad then (sel, table) = (0, s.fmt.darkTable) else s.selector = some (sel, table)) →
            (r.2.2 = true → exec (.write i) s = no r.1 0x0020) ∧
            (r.2.2 = false →
              let f := r.1.taBytes a 0 512
              let whole := formatOk f && r.1.taBytes a 0 3670016 == formatData f
              ∃ t, exec (.write i) s = .next t ∧ t.held = r.1.held ∧ t.cmds 2 = (s.cmds 2).erase m ∧
              t.fmt.jobs = s.fmt.jobs ++ [{ cmd := m, yealm := y, quad := quad, n := n, selector := sel }] ∧
              (y ≠ quadBase → t.fmt.darkTable = table ∧ t.fmt.ridgeProtection = s.fmt.ridgeProtection) ∧
              (y = quadBase → whole = true → t.fmt.darkTable = bytesAt f 48 8 ∧ t.fmt.ridgeProtection = (natAt f 6 1).testBit 0) ∧
              y ∉ t.fmt.passed ∧ t.decodedOf y = none ∧ t.wrc.placed = true ∧ t.flag F.WRC_STAT.WRITING = true ∧ t.mem = r.1.mem))))) ∧
    (Starts s 2 i 3 m →
      let r := u.taRead a 1024
      (∀ e, s.engCheck m a 1024 = some e → ∃ t, exec (.seal i) s = .next t ∧ SealRefused s t m e) ∧
      (s.engCheck m a 1024 = none →
        (r.2.2 = true → ∃ t, exec (.seal i) s = .next t ∧ SealRefused r.1 t m 0x0020) ∧
        (r.2.2 = false → recSeq r.2.1 ≠ (s.txr.get (fun _ => 0) 0).toNat →
          ∃ t, exec (.seal i) s = .next t ∧ SealRefused r.1 t m 0x0010) ∧
        (r.2.2 = false → recSeq r.2.1 = (s.txr.get (fun _ => 0) 0).toNat →
          (∀ e, s.groupEnded r.2.1 = some e → ∃ t, exec (.seal i) s = .next t ∧ SealRefused r.1 t m e) ∧
          (s.groupEnded r.2.1 = none → ¬MayWrite s → ∃ t, exec (.seal i) s = .next t ∧ SealRefused r.1 t m 0x0003) ∧
          (s.groupEnded r.2.1 = none → MayWrite s → ∃ t, exec (.seal i) s = .next t ∧ t.held = r.1.held ∧
            t.fmt.seals = s.fmt.seals.takeWhile (fun x => decide (x.cmd.seq < m.seq)) ++ { cmd := m, record := r.2.1 } ::
              s.fmt.seals.dropWhile (fun x => decide (x.cmd.seq < m.seq)) ∧ t.flag F.WRC_STAT.WRITING = true ∧
            t.cmds 2 = (s.cmds 2).erase m ∧ t.mem = r.1.mem))))

namespace Sys2Proof.Claims

/-- An instance of a yealm written on one list of channels has begun as `j'`: its WRITE's record and the courses laid out (R12, R45,
R46, R55). -/
def Laid (s t : State) (j j' : YealmJob) (w : Nat → WChan) : Prop :=
  t.jobOf j.cmd.seq = some j' ∧ j'.started = true ∧ j'.scheduled = none ∧ j'.pending = 240 * j.n ∧
    j'.inst = (if j.scheduled.isSome then j.inst + 1 else j.inst) ∧ j'.slots = [] ∧ j'.passed = [] ∧
    (∀ e ∈ s.activeList.zipIdx, t.wchan e.1 = (w e.1).append (yealmCourses j' 0 e.2)) ∧ t.flag F.WRC_STAT.WRITING = true

end Sys2Proof.Claims

/-- R12, R39, R54, R55, R62, R63, R71, R164 to R169: yealms and seals begin at a boundary, on this wrap or the next; a course is judged by
its copy, gets a let or a new instance when it fails, and the last one ends its WRITE; a seal passes, is repeated or lost; the UF1
locator is written after the last seal.
The model's own readings in it: log entry 37 (DEDUCED). -/
def Obligations.TapeWriting : Prop :=
  ∀ (c : Chan) (framed : Bool) (s : State), s.canonical = true → Orderly s →
    let k := c.val
    let w := s.wchan k
    let v := s.resumeDue
    let ends (t : State) (m : Cmd) (st : W16) (detail result : Nat) : Prop :=
      ⟨completionItem m.target (dCode m.desc) false st detail result (dTag m.desc), m⟩ ∈ t.held
    (s.clocked = false → ∀ i ∈ [Instr.yealmStart, .sealBegin, .courseVerify c framed, .sealVerify, .uf1LocatorWrite], exec i s = .next s) ∧
    (s.wrc.resume = [] → v = s) ∧
    (∀ n q l, s.wrc.resume = (n, q) :: l → s.drained = true → (∀ g ∈ s.hst.closed, q < g.seq) → (∀ j ∈ s.fmt.jobs, n ≤ j.cmd.seq) →
      (∀ j ∈ s.fmt.seals, n ≤ j.cmd.seq) → v.wrc.resume = l ∧ v.wrc.placed = true ∧ v.fmt.passed = [] ∧ v.fmt.ended = [] ∧
        v.fmt.jobs = s.fmt.jobs ∧ v.fmt.seals = s.fmt.seals ∧ v.fmt.chain = s.fmt.chain) ∧
    (s.clocked = true → v.atBoundary = false ∨ v.sealReady.isSome = true ∨ (∃ j ∈ s.fmt.seals, j.begun = true) →
      exec .yealmStart s = .next v) ∧
    (s.clocked = true → v.atBoundary = true → v.sealReady = none → (∀ j ∈ s.fmt.seals, j.begun = false) →
      (∀ j, v.nextYealm = some j → j.yealm = quadBase → j.started = false →
        (v.judged = false → exec .yealmStart s = .next v) ∧
        (v.judged = true → ∃ t j', exec .yealmStart s = .next t ∧ t.jobOf j.cmd.seq = some j' ∧ j'.started = true ∧
          t.fmt.chain = [] ∧ t.fmt.copies = [] ∧ t.wrc.wrap = 0 ∧ t.hst.records = [] ∧ t.hst.closed = [] ∧ t.hst.group = {})) ∧
      (v.nextYealm = none → v.sealWaits = false → (∃ e ∈ v.activeList, (v.wchan e).rewind.isSome = true) →
        ∃ t, exec .yealmStart s = .next t ∧ t.mot = { v.mot with stopPending := true } ∧
          t.fld F.PACE_CNT.FORCED = up 16 (s.fld F.PACE_CNT.FORCED)) ∧
      (v.nextYealm = none → v.sealWaits = true ∨ (∀ e ∈ v.activeList, (v.wchan e).rewind = none) →
        exec .yealmStart s = .next v) ∧
      (∀ j, v.nextYealm = some j → j.quad = false → j.yealm ≠ quadBase →
        (v.segsLeft 170 = true → ∃ t j', exec .yealmStart s = .next t ∧ Laid v t j j' v.wchan ∧ t.wrc.wrap = v.wrc.wrap) ∧
        (v.segsLeft 170 = false → v.drained = false → exec .yealmStart s = .next v) ∧
        (v.segsLeft 170 = false → v.drained = true → v.wrc.wrap < 367 → ∃ t j', exec .yealmStart s = .next t ∧
          t.wrc.wrap = v.wrc.wrap + 1 ∧
          Laid v t j j' (fun e => { v.wchan e with atom := 1, seg := 0, rewind := none })) ∧
        (v.segsLeft 170 = false → v.drained = true → 367 ≤ v.wrc.wrap → ∃ t, exec .yealmStart s = .next t ∧
          t.jobOf j.cmd.seq = none ∧ (j.yealm, St.TAPE_FULL) ∈ t.fmt.ended ∧ ends t j.cmd St.TAPE_FULL j.inst j.letCount))) ∧
    (s.sealReady = none ∨ s.atBoundary = false → exec .sealBegin s = .next s) ∧
    (∀ j, s.clocked = true → s.sealReady = some j → s.atBoundary = true →
      (s.selector = none → ∃ t, exec .sealBegin s = .next t ∧ ends t j.cmd 0x0010 0 0) ∧
      (∀ sel table, s.selector = some (sel, table) → s.segsLeft 2 = true →
        let place := segLpos s.wrc.wrap (s.wchan (s.activeList.headD 0)).nextPos.1
        let rec' := ({ s with fmt := { s.fmt with darkTable := table } } : State).fillRecord j.record place
        let o := taOff (dA j.cmd.desc) % 4096
        ∃ t, exec .sealBegin s = .next t ∧ t.fmt.darkTable = table ∧
          (o + 1024 ≤ 4096 → s.strong (tileAt s (dA j.cmd.desc)) = false → ∀ e ∈ [(44, 4), (48, 2), (928, 8), (1020, 4)],
            t.memBytes (4096 * tileAt s (dA j.cmd.desc) + o + e.1) e.2 = bytesAt rec' e.1 e.2) ∧
          (∃ x ∈ t.fmt.seals, x.cmd = j.cmd ∧ x.begun = true ∧ x.record = rec' ∧ x.total = s.activeList.length ∧ x.judged = 0) ∧
          ∀ e ∈ s.activeList, ∃ x, t.wchan e = (s.wchan e).append [x] ∧ x.kind = .sealCourse ∧ x.record = rec' ∧ x.i = 254 ∧
            x.rewrite = j.rewrite)) ∧
    (w.awaiting = [] → exec (.courseVerify c framed) s = .next s) ∧ (s.clocked = true →
    (framed = true → (∀ x ∈ s.fmt.copies, x.chan ≠ k) → exec (.courseVerify c framed) s = .next s) ∧
    ∀ x l j, w.awaiting = x :: l → x.gated = false → x.tail = false → x.again = false → x.kind = .orig →
      s.jobOf x.job = some j → j.inst = x.rewrite → j.scheduled = none → j.passed.get (fun _ => false) x.key = false →
      (∀ y, (s.fmt.copies.find? fun y => y.chan == k) = some y → (s.copyStands x y).2 = true →
        ∃ t, exec (.courseVerify c true) s = .next t ∧ (t.wchan k).awaiting = l ∧ t.fmt.copies = s.fmt.copies.erase y ∧
          (1 < j.pending → t.held = s.held ∧
            t.jobOf x.job = some { j with passed := j.passed.set (fun _ => false) x.key true, pending := j.pending - 1 }) ∧
          (j.pending ≤ 1 → t.jobOf x.job = none ∧ t.fmt.passed = s.fmt.passed ++ [j.yealm] ∧
            ends t j.cmd 0 j.inst j.letCount)) ∧
      (let n := j.tries.get (fun _ => 0) x.key + 1
       ∃ t, exec (.courseVerify c false) s = .next t ∧ (t.wchan k).awaiting = l ∧
         (∀ q, n ≠ 3 → j.freeSlot x.quarter = some q → t.held = s.held ∧ t.fld F.WRC_CNT0.LETS = up 16 (s.fld F.WRC_CNT0.LETS) ∧
           t.jobOf x.job = some { j with
             tries := j.tries.set (fun _ => 0) x.key n, letCount := j.letCount + 1,
             slots := j.slots.set (fun _ => 0) (x.quarter * 1024 + q) (x.g * 256 + x.i + 1) }) ∧
         (n = 3 ∨ j.freeSlot x.quarter = none → j.inst < 7 → t.held = s.held ∧
           t.fld F.WRC_CNT0.REINST = up 16 (s.fld F.WRC_CNT0.REINST) ∧ t.fmt.nextSched = s.fmt.nextSched + 1 ∧
           t.jobOf x.job = some { j with tries := j.tries.set (fun _ => 0) x.key n, scheduled := some s.fmt.nextSched }) ∧
         (n = 3 ∨ j.freeSlot x.quarter = none → 7 ≤ j.inst → t.jobOf x.job = none ∧ (j.yealm, St.MEDIA_LOST) ∈ t.fmt.ended ∧
           ends t j.cmd St.MEDIA_LOST j.inst j.letCount))) ∧
    ((∀ j ∈ s.fmt.seals, j.begun = false ∨ j.judged ≠ j.total) → exec .sealVerify s = .next s) ∧
    (∀ j, s.clocked = true → (s.fmt.seals.find? fun j => j.begun && decide (j.judged = j.total)) = some j →
      (j.total ≤ 2 * j.passes → ∃ t q, exec .sealVerify s = .next t ∧ t.fmt.chain = s.fmt.chain ++ [q] ∧
        q.seq = recSeq j.record ∧ q.last = recLast j.record ∧ q.record = j.record ∧ q.begins = j.begins ∧ q.ends = j.ends ∧
        ends t j.cmd 0 0 j.rewrite) ∧
      (2 * j.passes < j.total → 7 ≤ j.rewrite → ∃ t, exec .sealVerify s = .next t ∧ t.fmt.chain = s.fmt.chain ∧
        ends t j.cmd St.MEDIA_LOST 0 0) ∧
      (2 * j.passes < j.total → j.rewrite < 7 → s.segsLeft 2 = false → s.drained = false → exec .sealVerify s = .next s) ∧
      (2 * j.passes < j.total → j.rewrite < 7 → s.segsLeft 2 = true → ∃ t, exec .sealVerify s = .next t ∧
        t.fmt.chain = s.fmt.chain ∧ ∃ x ∈ t.fmt.seals, x.cmd = j.cmd ∧ x.rewrite = j.rewrite + 1 ∧ x.judged = 0 ∧
          x.record = j.record)) ∧
    (s.fmt.chain = [] ∨ s.flag F.WRC_STAT.WRITING = true → exec .uf1LocatorWrite s = .next s) ∧
    (∀ r, s.clocked = true → s.fmt.chain.getLast? = some r → s.flag F.WRC_STAT.WRITING = false →
      exec .uf1LocatorWrite s = .next (s.emit (.cartridgeMemory (s.locator r))))

namespace Sys2Proof.Claims

/-- One control block of a type on every writer link, as each link's scrambler makes it (R157). -/
def onLinks (s : State) (type : Byte) : List Out :=
  (List.range 8).map fun k => .linkBlocks k [(linkBlock false (type.zeroExtend 64) (s.wrc.scram.get (fun _ => 0) k)).1]

/-- The segment that a channel's gate-on packs, as its courses are resolved and fed: the state then, and the pieces. `b` is the state
with the late gate-on counted (R155). -/
def fedSegment (b : State) (w : WChan) : State × List (CourseOut × Nat × Nat) :=
  (b.resolveAll (packSeg 4 0 w.queue w.atom).1).1.feed (b.resolveAll (packSeg 4 0 w.queue w.atom).1).2

end Sys2Proof.Claims

/-- R153, R155, R157 to R164, R170 to R176, R210: gates, the sideband, write inhibit and the end of a write. A gate opens at the point
that the batten events give, 64 lane bits or more behind its six-byte command, and closes after L bits. `q` is the state with the links
brought up to date.
The model's own readings in it: log entry 38 (DEDUCED), log entry 39 (DEDUCED), log entry 97 (DEDUCED), log entry 98 (DESIGN CHOICE),
log entry 113 (DESIGN CHOICE). -/
def Obligations.WriteChannelEffects : Prop :=
  ∀ (c : Chan) (ago : Fin 4) (link : Fin 8) (reply : Option Byte) (bytes : List Byte) (low v : Bool) (s : State),
    s.canonical = true → Orderly s → s.afeHeld = false →
    let k := c.val
    let w := s.wchan k
    let q := s.sendLinks
    let w' := q.wchan k
    let ready := q.commandEnd w'
    let point := (q.gatePoint w' ago (ready + 64)).1
    let room := (q.gatePoint w' ago (ready + 64)).2
    let lead := (point - ready).floor.toNat
    let L := Min.min 14593 room.floor.toNat
    let cmd := gateCommand lead L
    let b := if 14603 < room then q.bump F.WRC_CNT1.SLACK_HI else q
    let u := (fedSegment b w').1
    let ps := (fedSegment b w').2
    let shut (t : State) : Prop := ∀ j, j < 64 → (t.wchan j).gateOpen = false
    let inhibited (t : State) (cause : Field) : Prop :=
      t.flag F.WRC_STAT.INHIBIT = true ∧ t.flag cause = true ∧ t.fld F.WRC_CNT1.INH_EVT = up 16 (s.fld F.WRC_CNT1.INH_EVT) ∧ shut t ∧
        ∃ more, t.out = q.out ++ onLinks q 0x2D ++ more
    let mayEnd : Prop := s.flag F.WRC_CTL.INH_SW = false ∧ ¬(s.flag F.WRC_INH_CTL.SHOCK_EN = true ∧ s.wrc.shockLow = true) ∧
      ¬(s.flag F.WRC_INH_CTL.ACC_EN = true ∧ s.wrc.accHigh = true) ∧
      Max.max 1 (s.fld F.WRC_INH_CTL.RESUME_CNT) ≤ s.wrc.clearSamples
    let stopped (t : State) : Prop := t.flag F.WRC_CTL.RUN = false ∧ t.fmt.jobs = [] ∧ t.fmt.seals = [] ∧
      t.flag F.WRC_STAT.WRITING = false ∧ t.wrc.placed = false ∧ shut t ∧
      t.held = s.held ++
        (s.fmt.jobs.map fun j =>
          ⟨completionItem j.cmd.target (dCode j.cmd.desc) false 0x0003 j.inst j.letCount (dTag j.cmd.desc), j.cmd⟩) ++
        (s.fmt.seals.map fun j => ⟨completionItem j.cmd.target (dCode j.cmd.desc) false 0x0003 0 0 (dTag j.cmd.desc), j.cmd⟩)
    let frames (l : List (Nat × Nat × Nat)) : List Out :=
      (l.take 1).map fun e => .sideband (sbFrame e.1 false e.2.1 (s.sbPayload e.1 e.2.1))
    let waits : Prop := w.gateOpen = true ∨ w.queue = [] ∨ s.mot.stopped = true ∨ s.wrc.announced ≠ some s.wrc.wrap ∨
      s.wrc.idleSent < 4096 ∨ ratAbs s.tapeSpeed < 4 / 5 ∨ 8 < ratAbs s.tapeSpeed
    (s.clocked = false → ∀ i ∈ [Instr.gateOn c ago, .gateOff c, .wrapEndBlock, .sidebandReply link reply, .sidebandStatusRead link bytes,
      .sidebandDirection, .inhibitTimeout], exec i s = .next s) ∧
    (waits → exec (.gateOn c ago) s = .next s) ∧
    (s.clocked = true → ¬waits →
      (u.battenLock k = true → u.flag F.WRC_STAT.INHIBIT = false → u.darkGroup ≠ some (k / 4) →
        ps.any (fun x => x.1.kind != .unwritten) = true →
        ∃ t, exec (.gateOn c ago) s = .next t ∧ t.out = u.out ++ [.gateOnCommand k cmd] ∧
          cmd.length = 6 ∧ cmd.headD 0 = 0x5A ∧ natAt cmd 1 2 = lead % 65536 ∧ natAt cmd 3 2 = L ∧ 64 ≤ lead ∧
          (t.wchan k).gateAt ≤ point ∧ point < (t.wchan k).gateAt + 1 ∧
          (t.wchan k).lane = w'.lane ++ List.replicate w'.lanePad false ++ msbBits cmd ++ List.replicate lead false ++ (t.wchan k).laid ∧
          (t.wchan k).laid = (u.segmentBits ps).take L ∧ (t.wchan k).laid.take 40 = (tone 24 ++ bitsOf 16 0xE32C).take L ∧
          (t.wchan k).gateOpen = true ∧ (t.wchan k).len = L ∧ (t.wchan k).gateAt = ready + (lead : Rat) ∧
          (t.wchan k).seg = w.seg + 1 ∧ t.flag F.WRC_STAT.WRITING = true ∧ (∀ j, j ≠ k → t.wchan j = q.wchan j)) ∧
      (u.battenLock k = false ∨ u.flag F.WRC_STAT.INHIBIT = true ∨ u.darkGroup = some (k / 4) ∨
          ps.any (fun x => x.1.kind != .unwritten) = false →
        ∃ t, exec (.gateOn c ago) s = .next t ∧ (t.wchan k).gateOpen = false ∧ (t.wchan k).seg = w.seg + 1 ∧
          ∀ x ∈ t.out, x ∉ u.out → ∀ l, x ≠ .gateOnCommand k l)) ∧
    (w.gateOpen = false → exec (.gateOff c) s = .next s) ∧
    (s.clocked = true → w.gateOpen = true → 14593 ≤ w.len → ∃ t, exec (.gateOff c) s = .next t ∧
      t.out = s.out ++ [.gateOff k, .segment k (w.laid.take w.len)] ∧
      t.wchan k = { w with gateOpen := false, curDone := 0, curSplit := false, ends := [], laid := [] } ∧ OnlyWchan k [0xC00014] s t) ∧
    (s.clocked = true → w.gateOpen = true → w.len < 14593 → ∃ t more, exec (.gateOff c) s = .next t ∧
      t.out = s.out ++ [.gateOff k, .segment k (w.laid.take w.len)] ++ more ∧
      (t.wchan k).gateOpen = false ∧ t.flag F.WRC_STAT.TRUNC = true ∧
      t.fld F.WRC_CNT1.TRUNC_CNT = up 8 (s.fld F.WRC_CNT1.TRUNC_CNT)) ∧
    (s.clocked = true → ∃ t more, exec .wrapEndBlock s = .next t ∧ t.out = q.out ++ onLinks q 0x4B ++ more ∧ shut t ∧ t.wrc.announced = none) ∧
    (s.inRun = true → s.flag F.WRC_STAT.SB_BUSY = true → exec .sbGo s = .next (s.raise F.WRC_STAT.SB_ERR)) ∧
    (s.inRun = true → s.flag F.WRC_STAT.SB_BUSY = false → ∃ t, exec .sbGo s = .next t ∧
      t.wrc.sbQueue = ((List.range 8).filter fun l => (s.fld F.WRC_SB_CTL.LINK_MASK).testBit l).flatMap
        (fun l => [(l, 1, 0), (l, 2, 0)]) ∧
      (t.flag F.WRC_STAT.SB_BUSY = decide (s.fld F.WRC_SB_CTL.LINK_MASK ≠ 0)) ∧
      (∀ j, j < 64 → (s.fld F.WRC_SB_CTL.LINK_MASK).testBit (j / 8) = true →
        t.wrc.iwLatch.get (fun _ => 0) j = s.reg (0xC00100 + 4 * j) ∧ t.wrc.pcLatch.get (fun _ => 0) j = s.reg (0xC00200 + 4 * j)) ∧
      OnlyRegs [0xC00014] s { t with wrc := s.wrc, out := s.out }) ∧
    (s.wrc.sbQueue = [] → exec (.sidebandReply link reply) s = .next s) ∧
    (∀ l type tries rest, s.clocked = true → s.wrc.sbQueue = (l, type, tries) :: rest →
      (l ≠ link.val → exec (.sidebandReply link reply) s = .next s) ∧
      (l = link.val → reply = some 0 → ∃ t, exec (.sidebandReply link reply) s = .next t ∧ t.wrc = { s.wrc with sbQueue := rest } ∧
        t.out = s.out ++ frames rest ∧ t.flag F.WRC_STAT.SB_BUSY = !rest.isEmpty ∧
        OnlyRegs [0xC00014] s { t with wrc := s.wrc, out := s.out }) ∧
      (l = link.val → reply ≠ some 0 → tries < 2 → ∃ t, exec (.sidebandReply link reply) s = .next t ∧
        t.wrc = { s.wrc with sbQueue := (l, type, tries + 1) :: rest } ∧ t.out = s.out ++ frames [(l, type, 0)]) ∧
      (l = link.val → reply ≠ some 0 → 2 ≤ tries → ∃ t, exec (.sidebandReply link reply) s = .next t ∧
        t.wrc.sbQueue = rest ∧ t.flag F.WRC_STAT.SB_ERR = true)) ∧
    (let good : Prop := bytes.length = 7 ∧ natAt bytes 0 1 = 0 ∧
        (bytesAt bytes 5 2).reverse = leBytes 2 (crc16 (bytesAt bytes 1 4)).toNat
     let failures := s.wrc.statTries.get (fun _ => 0) link.val
     s.clocked = true → ∃ t more, exec (.sidebandStatusRead link bytes) s = .next t ∧
       t.out = s.out ++ [.sideband (sbFrame link.val false 4 [])] ++ more ∧
       (good → more = [] ∧ t.fld F.WRC_SB_STAT.FLAGS link = natAt bytes 1 1 ∧ t.fld F.WRC_SB_STAT.TEMP link = natAt bytes 2 1 ∧
         t.wrc.statTries.get (fun _ => 0) link.val = 0) ∧
       (¬good → failures < 2 → more = [] ∧ t.wrc.statTries.get (fun _ => 0) link.val = failures + 1 ∧ t.regs = s.regs) ∧
       (¬good → 2 ≤ failures → t.flag F.WRC_STAT.SB_ERR = true ∧ t.wrc.statTries.get (fun _ => 0) link.val = 0)) ∧
    (s.clocked = true → exec .sidebandDirection s = .next
      { s with
        out := s.out ++ [.sideband (sbFrame 0 true 3 [BitVec.ofNat 8 (s.fld F.MOT_WRAP.W % 2)])]
        wrc := { s.wrc with announced := some (s.fld F.MOT_WRAP.W) } }) ∧
    (∃ t, exec (.shockInput low) s = .next t ∧ t.wrc.shockLow = low ∧
      t.fld F.MOT_CNT.SHOCK_CNT = (if low = true ∧ s.wrc.shockLow = false then up 8 (s.fld F.MOT_CNT.SHOCK_CNT)
        else s.fld F.MOT_CNT.SHOCK_CNT) ∧
      (low = true → s.flag F.WRC_INH_CTL.SHOCK_EN = true → s.flag F.WRC_STAT.INHIBIT = false → inhibited t F.WRC_STAT.INH_SHOCK) ∧
      (low = false → t = { s with wrc := { s.wrc with shockLow := false } })) ∧
    (s.inRun = true → ∃ t, exec (.inhSw v) s = .next t ∧ t.flag F.WRC_CTL.INH_SW = v ∧
      (v = true → s.flag F.WRC_STAT.INHIBIT = false → inhibited t F.WRC_STAT.INH_SWS) ∧
      (v = false → s.flag F.WRC_CTL.AUTO_RESUME = false → t.flag F.WRC_STAT.INHIBIT = s.flag F.WRC_STAT.INHIBIT)) ∧
    (s.inRun = true → mayEnd → exec .inhClr s = .next (s.setFlag F.WRC_STAT.INHIBIT false)) ∧
    (s.inRun = true → ¬mayEnd → exec .inhClr s = .next s) ∧
    (s.inRun = true → ∃ t, exec .wrcRunStop s = .next t ∧ stopped t) ∧
    (s.flag F.WRC_STAT.INHIBIT = false → exec .inhibitTimeout s = .next s) ∧
    (s.clocked = true → s.flag F.WRC_STAT.INHIBIT = true → ∃ t, exec .inhibitTimeout s = .next t ∧ stopped t)

/-- R152, R154, R170, R173, R178 to R190, R208, R209: what SRV reads in a channel's stretch and gives it, a missed batten, batten lock
and the writer clock, the head position sample with the write inhibit it triggers, the fit of a cell, and the read of the
accelerometer.
The model's own readings in it: log entry 45 (DESIGN CHOICE), log entry 46 (DEDUCED), log entry 47 (DESIGN CHOICE), log entry 49 (DESIGN
CHOICE), log entry 104 (DEDUCED), log entry 110 (DESIGN CHOICE), log entry 111 (DESIGN CHOICE). -/
def Obligations.ServoReads : Prop :=
  ∀ (c : Chan) (phase : Fin 8) (replies : List SensorReply) (s : State), s.canonical = true → Orderly s →
    let k := c.val
    let x := s.srvChan k
    let w := s.wchan k
    let wrap := s.fld F.MOT_WRAP.W
    let target := targetTrack wrap k
    let found := s.readBatten k wrap (s.acquire k wrap).1 (s.acquire k wrap).2
    let next := x.lpos.map (nextLpos wrap)
    let misses := Min.min 2 (x.misses + 1)
    let m := s.headSample phase
    let limit : Nat := Max.max 1 (s.fld F.WRC_INH_CTL.PES_TH)
    let count : Nat := Max.max 1 (s.fld F.WRC_INH_CTL.PES_CNT)
    let r := runList s.sensorList true replies {}
    (s.chanOn k = false ∨ x.ready = false ∨ s.clocked = false → exec (.battenDecode c) s = .next s) ∧
    (s.clocked = true → s.chanOn k = true → x.ready = true → found = none → ∃ t, exec (.battenDecode c) s = .next t ∧
      (t.srvChan k).ready = false ∧
      (∀ f ∈ [F.SRV_CH.SYNC_OK, F.SRV_CH.POS_VALID, F.SRV_CH.LPOS_OK, F.SRV_CH.TRK_VALID], t.flag f k = false) ∧
      (t.srvChan k).misses = misses ∧ (t.srvChan k).hunt = decide (misses = 2) ∧
      (t.srvChan k).lpos = (if misses = 2 then none else next) ∧
      t.fld F.SRV_CNT.SYNC_MISS = (if x.hunt then s.fld F.SRV_CNT.SYNC_MISS else up 16 (s.fld F.SRV_CNT.SYNC_MISS)) ∧
      (misses = 2 → t.battenLock k = false) ∧ (∀ j, j ≠ k → t.srvChan j = s.srvChan j)) ∧
    (∀ b syncAt time, s.clocked = true → s.chanOn k = true → x.ready = true → found = some (b, syncAt, time) →
      let track := s.trackNumber b target
      let field := s.lposField b
      let ok := s.positionOk k b track
      let at' : Rat := ((64 * time).floor : Rat) / 64
      let cells : Rat := x.misses + 1
      let good := if w.anchors ≠ [] ∧ ratAbs (s.bitsAt at' - (w.anchors.getD 0 0 + cells * cellBits)) ≤ 2 then w.goodBattens + 1 else 0
      ∃ t, exec (.battenDecode c) s = .next t ∧ (t.srvChan k).ready = false ∧
      t.flag F.SRV_CH.SYNC_OK k = true ∧ t.flag F.SRV_CH.POS_VALID k = ok ∧ t.flag F.SRV_CH.LPOS_OK k = field.isSome ∧
      t.flag F.SRV_CH.TRK_VALID k = track.isSome ∧ (t.srvChan k).hunt = false ∧ (t.srvChan k).misses = 0 ∧
      (t.srvChan k).fresh = ok ∧ (t.srvChan k).time = (64 * time).floor ∧ (t.srvChan k).syncAt = syncAt ∧
      (∀ n, track = some n → (t.srvChan k).track = n) ∧
      (ok = true → (t.srvChan k).pes = s.battenPes b (track.getD 0) target wrap) ∧
      (ok = true → (nearest (s.battenPes b (track.getD 0) target wrap)).natAbs < 32768 →
        t.sfld F.SRV_CH.PES k = nearest (s.battenPes b (track.getD 0) target wrap)) ∧
      (∀ l, field = some l → next = none ∨ next = some l → (t.srvChan k).lpos = some l) ∧
      (∀ l q, field = some l → next = some q → q ≠ l → x.jump.map (nextLpos wrap) ≠ some l →
        (t.srvChan k).lpos = some q ∧ (t.srvChan k).jump = some l ∧
          t.fld F.SRV_CNT.LPOS_JUMP = up 8 (s.fld F.SRV_CNT.LPOS_JUMP)) ∧
      (∀ q, field = none → next = some q → (t.srvChan k).lpos = some q ∧
        t.fld F.SRV_CNT.LPOS_MISS = up 8 (s.fld F.SRV_CNT.LPOS_MISS)) ∧
      (t.wchan k).goodBattens = Min.min 2 good ∧ (t.wchan k).anchors = (s.bitsAt at' :: w.anchors).take 4 ∧
      (t.battenLock k = true ↔ good ≠ 0 ∧ (s.battenLock k = true ∨ 2 ≤ good)) ∧
      (t.battenLock k = true → w.anchors ≠ [] → w.anchorTime < at' →
        t.wrc.clockTime = at' ∧ t.wrc.clockBits = s.bitsAt at' ∧
          t.wrc.clockRate = cellBits / ((at' - w.anchorTime) / cells) + s.wrc.clockAcc * (at' - w.anchorTime) / 2)) ∧
    (s.clocked = true → ∃ t, exec (.headPositionSample phase) s = .next t ∧ t.fld F.SRV_HEAD.PHASE = phase ∧ t.flag F.SRV_HEAD.VALID = m.isSome ∧
      (∀ j, j < 64 → j % 8 = phase.val → (t.srvChan j).fresh = false) ∧
      (∀ e, m = some e → (nearest e).natAbs < 32768 → t.sfld F.SRV_HEAD.PES = nearest e) ∧
      (∀ e, m = some e → (t.livePort 0 = e ∧ t.livePort 1 = 1)) ∧ (m = none → t.livePort 1 = 0) ∧
      (m = none → t.wrc.posLost = s.wrc.posLost + 1 ∧ t.wrc.pesBad = 0 ∧ t.wrc.clearSamples = 0) ∧
      (∀ e, m = some e → limit < (nearest e).natAbs →
        t.wrc.pesBad = s.wrc.pesBad + 1 ∧ t.wrc.posLost = 0 ∧ t.wrc.clearSamples = 0) ∧
      (∀ e, m = some e → (nearest e).natAbs ≤ limit → t.wrc.pesBad = 0 ∧ t.wrc.posLost = 0 ∧
        t.wrc.clearSamples = (if s.triggered then 0 else s.wrc.clearSamples + 1)) ∧
      (m = none → count ≤ s.wrc.posLost + 1 → t.flag F.WRC_STAT.INHIBIT = true ∧
        (s.flag F.WRC_STAT.INHIBIT = false → t.flag F.WRC_STAT.INH_PES = true ∧ ∀ j, j < 64 → (t.wchan j).gateOpen = false)) ∧
      (phase.val = 7 → (∀ j, j < 64 → (t.srvChan j).inCell = false) ∧
        t.flag F.SRV_EST1.EST_VALID = (decide (16 ≤ ((List.range 64).filter fun p => (s.srvChan p).inCell).length) &&
          (List.range 16).any (fun p => (s.srvChan p).inCell) && (List.range 16).any fun p => (s.srvChan (48 + p)).inCell) ∧
        (s.fld F.MOT_TENS0.T_MIN ≤ s.fld F.MOT_TENS1.T_MAX →
          (s.fld F.MOT_TENS0.T_MIN : Rat) ≤ t.mot.tensGoal ∧ t.mot.tensGoal ≤ s.fld F.MOT_TENS1.T_MAX))) ∧
    (s.clocked = false → exec (.headPositionSample phase) s = .next s) ∧
    (s.flag F.MOT_CTL.RUN = false ∨ s.clocked = false → exec (.accRead replies) s = .next s) ∧
    (s.clocked = true → s.flag F.MOT_CTL.RUN = true → r.spiFail = false → ∃ t more, exec (.accRead replies) s = .next t ∧
      t.out = s.out ++ (r.sent.map fun y => .sensorBus y) ++ more ∧ t.flag F.MOT_STAT.ACC_FAIL = s.flag F.MOT_STAT.ACC_FAIL ∧
      (t.wrc.accHigh = decide ((Max.max 1 (s.fld F.MOT_ACC.ACC_LIM) : Nat) / 100 < t.livePort 19)) ∧
      (t.wrc.accHigh = true → s.flag F.WRC_INH_CTL.ACC_EN = true → t.flag F.WRC_STAT.INHIBIT = true)) ∧
    (s.clocked = true → s.flag F.MOT_CTL.RUN = true → r.spiFail = true → ∃ t, exec (.accRead replies) s = .next t ∧
      t.flag F.MOT_STAT.ACC_FAIL = true ∧ t.wrc.accHigh = false)

/-- R114, R152, R191 to R206: the motion engine's tick with its inputs, MOT_SYNC and frames, an overrun, a returned frame, start and stop,
the loops and the wrap.
The model's own readings in it: log entry 47 (DESIGN CHOICE), log entry 96 (DEDUCED), log entry 97 (DEDUCED), log entry
112 (DESIGN CHOICE). -/
def Obligations.MotionEngineEffects : Prop :=
  ∀ (i : TickIn) (line : Fin 2) (frame : W32) (bits : BitVec 5) (w : BitVec 9) (s : State), s.canonical = true → Orderly s →
    let f := frame.toNat
    let value : W16 := BitVec.ofNat 16 (f / 2 ^ 12)
    let good : Prop := crc8 (leBytes 3 (f / 256)).reverse = BitVec.ofNat 8 f ∧ f / 256 % 16 = s.mot.tick % 16
    let seq := s.mot.tick + 1
    let close := s.fld F.MOT_LOOP.CLOSE
    let lines (code : Nat → W16) (ctl : W16) : List Out :=
      [.motionFrame 0 (motionFrame 1 (code 0) seq), .motionFrame 0 (motionFrame 2 (code 1) seq),
       .motionFrame 0 (motionFrame 3 (code 2) seq), .motionFrame 0 (motionFrame 4 ctl seq),
       .motionFrame 1 (motionFrame 5 (code 3) seq), .motionFrame 1 (motionFrame 6 (code 4) seq),
       .motionFrame 1 (motionFrame 7 (code 5) seq), .motionFrame 1 (motionFrame 4 ctl seq)]
    (s.clocked = false → ∀ r ∈ [Instr.motTick i, .motOverrun, .motDiFrame line frame], exec r s = .next s) ∧
    (s.mot.overrunDue = true → ∀ t, exec .motOverrun s = .next t → exec (.motTick i) s = exec (.motTick i) t) ∧
    (s.clocked = true → s.mot.overrunDue = false → ∃ t links, exec (.motTick i) s = .next t ∧ t.mot.tick = seq ∧ t.mot.wrapReq = none ∧
      t.fld F.MOT_WRAP.W = (match s.mot.wrapReq with | some x => x % 512 | none => s.fld F.MOT_WRAP.W) ∧
      t.fld F.MOT_LOOP.STATE = (if s.mot.openAll then 0 else close) ∧ t.mot.ports = t.mot.live ∧
      t.livePort 8 = radPerTurn * s.reelTurns i.hallSupply ∧ t.livePort 9 = radPerTurn * s.reelTurns i.hallTakeup ∧
      (s.lockedCells = [] → t.tapeSpeed = t.livePort 9 * s.livePort 11 / 1000) ∧
      (s.lockedCells ≠ [] → ratAbs t.tapeSpeed = 153600 / mean s.lockedCells ∧ (t.livePort 9 < 0 → t.tapeSpeed < 0) ∧
        (0 < t.livePort 9 → 0 < t.tapeSpeed)) ∧
      ratAbs (t.livePort 6 - s.livePort 6) ≤ s.paceAcc / 50000 ∧
      t.wrc.clockTime = s.now ∧ t.wrc.clockBits = s.nowBits ∧
      (∀ j, j < 64 → s.chanOn j = true → (t.rchan j).cutoff = ratClamp 15000000 190000000
        ((Max.max 24 (Min.min 48 (s.fld F.RDC_CTF_CTL.RATIO j)) : Nat) * (39370000 : Rat) * ratAbs t.tapeSpeed / 64)) ∧
      (∀ o ∈ links, ∃ n l, o = Out.linkBlocks n l) ∧ (s.nowBits < s.wrc.linkBits + 8 → links = []) ∧
      (s.wrc.linkBits + 8 ≤ s.nowBits → links.length = 8) ∧
      (s.flag F.MOT_CTL.LINK_EN = false → t.out = s.out ++ links) ∧
      (s.flag F.MOT_CTL.LINK_EN = true → s.flag F.MOT_CTL.RUN = false →
        t.out = s.out ++ links ++ [.motSync] ++ lines (fun _ => 0) 2) ∧
      (s.flag F.MOT_CTL.LINK_EN = true → s.flag F.MOT_CTL.RUN = true →
        ∃ ctl : W16, t.out = s.out ++ links ++ [.motSync] ++ lines (fun n => s.mot.codes.get (fun _ => 0) n) ctl ∧
          ctl.getLsbD 0 = !s.flag F.MOT_STAT.FAULT_STOP ∧ ctl.getLsbD 1 = s.flag F.MOT_STAT.FAULT_STOP) ∧
      (s.flag F.MOT_CTL.RUN = false → t.mot.codes = s.mot.codes ∧ t.mot.overruns = s.mot.overruns) ∧
      (t.mot.overrunDue = true → t.mot.codes = s.mot.codes) ∧
      (s.flag F.MOT_CTL.RUN = true → t.mot.overrunDue = false → t.mot.overruns = 0)) ∧
    (s.mot.overrunDue = false → exec .motOverrun s = .next s) ∧
    (s.clocked = true → s.mot.overrunDue = true → ∃ t, exec .motOverrun s = .next t ∧ t.mot.overruns = s.mot.overruns + 1 ∧ t.mot.overrunDue = false ∧
      t.flag F.MOT_STAT.OVERRUN = true ∧ t.fld F.MOT_CNT.OVR_CNT = up 16 (s.fld F.MOT_CNT.OVR_CNT) ∧
      (2 ≤ s.mot.overruns → t.flag F.MOT_STAT.FAULT_STOP = true ∧ t.mot.openAll = true ∧ t.fld F.MOT_LOOP.CLOSE = 0 ∧
        t.flag F.WRC_CTL.RUN = false ∧ t.fmt.jobs = []) ∧
      (s.mot.overruns < 2 → t.flag F.MOT_STAT.FAULT_STOP = s.flag F.MOT_STAT.FAULT_STOP ∧ t.fmt = s.fmt)) ∧
    (s.clocked = true → ¬good → exec (.motDiFrame line frame) s = .next ((s.bump F.MOT_CNT.DI_ERR).raise F.MOT_STAT.LINK_ERR)) ∧
    (s.clocked = true → good → (∀ p, diPort (f / 2 ^ 28) = some p → f / 2 ^ 28 ≠ 0xC → ∃ t, exec (.motDiFrame line frame) s = .next t ∧
        t.livePort p = (value.toInt : Rat) / 32768 ∧ (∀ q, q ≠ p → t.livePort q = s.livePort q) ∧
        t = { s with mot := { s.mot with live := t.mot.live } }) ∧
      (f / 2 ^ 28 = 0xC → exec (.motDiFrame line frame) s =
        .next (if value &&& 0x000B = 0 then s else s.report 0x0F02 value.toNat)) ∧
      (f / 2 ^ 28 ≠ 0xC → diPort (f / 2 ^ 28) = none → exec (.motDiFrame line frame) s = .next s)) ∧
    (s.afeHeld = false → s.inRun = true →
      (s.flag F.MOT_CTL.RUN = true → exec .motRunStart s = .next s) ∧
      (s.flag F.MOT_CTL.RUN = false →
        ((∃ n, n < 512 ∧ (s.step n).op = 0 ∧ ∀ j, j < n → s.badStep (s.step j) = false) → ∃ t, exec .motRunStart s = .next t ∧
          t.flag F.MOT_CTL.RUN = true ∧ t.flag F.MOT_STAT.RUNNING = true ∧ t.flag F.MOT_STAT.FAULT_STOP = false ∧
          t.mot = { s.mot with overruns := 0, overrunDue := false } ∧ OnlyRegs [0xF00000, 0xF00008] s { t with mot := s.mot }) ∧
        (¬(∃ n, n < 512 ∧ (s.step n).op = 0 ∧ ∀ j, j < n → s.badStep (s.step j) = false) →
          exec .motRunStart s = .next (s.raise F.MOT_STAT.BAD_STEP))) ∧
      (s.fld F.MOT_LOOP.STATE ≠ 0 → exec .motRunStop s = .next (s.raise F.MOT_STAT.LOOP_REFUSED)) ∧
      (s.fld F.MOT_LOOP.STATE = 0 → ∃ t, exec .motRunStop s = .next t ∧ t.flag F.MOT_CTL.RUN = false ∧
        t.flag F.MOT_STAT.RUNNING = false ∧ OnlyRegs [0xF00000, 0xF00008] s t) ∧
      (∃ t, exec (.loopClose bits) s = .next t ∧ OnlyRegs [0xF00004] s t ∧ t.fld F.MOT_LOOP.STATE = s.fld F.MOT_LOOP.STATE ∧
        ∀ l, l < 5 → (t.fld F.MOT_LOOP.CLOSE).testBit l = (close.testBit l || bits.getLsbD l)) ∧
      (∃ t, exec (.loopOpen bits) s = .next t ∧ OnlyRegs [0xF00004, 0xF00008] s t ∧
        t.fld F.MOT_LOOP.STATE = s.fld F.MOT_LOOP.STATE ∧
        (∀ l, l < 5 → (t.fld F.MOT_LOOP.CLOSE).testBit l = (close.testBit l && !(bits.getLsbD l && s.mayOpen l))) ∧
        ((∃ l, l < 5 ∧ close.testBit l = true ∧ bits.getLsbD l = true ∧ s.mayOpen l = false) →
          t.flag F.MOT_STAT.LOOP_REFUSED = true)) ∧
      (367 < w.toNat ∨ (s.mot.inDataZone = true ∧ 1 / 1000 ≤ ratAbs (s.livePort 5)) →
        exec (.motWrap w) s = .next (s.raise F.MOT_STAT.WRAP_REFUSED)) ∧
      (w.toNat ≤ 367 → s.mot.inDataZone = false ∨ ratAbs (s.livePort 5) < 1 / 1000 →
        exec (.motWrap w) s = .next { s with mot := { s.mot with wrapReq := some w.toNat } }))

/-- R210 to R214: an update of pace, the two halves of a backhitch, and the turn at the end of a wrap.
The model's own readings in it: log entry 43 (DESIGN CHOICE), log entry 48 (DEDUCED). -/
def Obligations.PaceTargetsAndStops : Prop :=
  ∀ s : State, s.canonical = true → Orderly s →
    let rd := s.flag F.PACE_CTL.MODE
    let e := if rd then 50 - s.paceFill else s.paceFill - 50
    let ry := ((if rd then s.mot.ryFreed else s.mot.ryNow) :: s.mot.ry).take 32
    let v : Rat := (ry.foldl (· + ·) 0 : Nat) / (32 / 1000 : Rat) * (6397 / 100000) + (s.fld F.PACE_LAW.KP : Rat) * e / 1000 + s.mot.integ
    let lim := s.paceLimits
    let goal : Nat := (Max.max 800 (s.fld F.PACE_STAT.TARGET) : Nat)
    (s.clocked = false → ∀ r ∈ [Instr.paceUpdate, .backhitchDecelerate, .backhitchResume, .turnaround], exec r s = .next s) ∧
    (s.flag F.PACE_CTL.EN = false → exec .paceUpdate s = .next s) ∧
    (s.clocked = true → s.flag F.PACE_CTL.EN = true → ∃ t, exec .paceUpdate s = .next t ∧ t.mot.ry = ry ∧ t.mot.ryNow = 0 ∧
      t.mot.ryFreed = 0 ∧ t.mot.fill = s.paceFill ∧ OnlyRegs [0xF00820] s { t with mot := s.mot } ∧
      (v < 8 / 10 → t.fld F.PACE_STAT.TARGET = 800 ∧ t.mot.below = s.mot.below + 1 ∧ t.mot.integ = s.mot.integ) ∧
      (8 / 10 ≤ v → t.mot.below = 0 ∧ (belowLimit lim v = true → t.fld F.PACE_STAT.TARGET = (nearest (1000 * v)).toNat % 8192)) ∧
      (8 / 10 < v → belowLimit lim v = true →
        t.mot.integ = s.mot.integ + (s.fld F.PACE_LAW.KI : Rat) / 16 * e / 1000) ∧
      (8 / 10 < v → belowLimit lim v = false → t.mot.integ = s.mot.integ) ∧
      (s.mot.stopped = true → t.mot.target = 0 ∧ t.mot.backGoal ≤ t.runUp) ∧
      (s.mot.stopped = false → v < 8 / 10 → t.mot.target = if s.mot.reverse then -800 else 800) ∧
      (s.mot.stopPending = false → s.mot.stopped = false → v < 8 / 10 →
        Max.max 1 (s.fld F.PACE_LAW.STOP_N) ≤ s.mot.below + 1 → rd = true ∨ (s.wrc.placed = true ∧ s.sealWaits = false) →
        t.mot.stopPending = true)) ∧
    (s.mot.stopPending = false ∨ s.mot.stopped = true ∨ (rd = false ∧ s.tailVerified = false) →
      exec .backhitchDecelerate s = .next s) ∧
    (s.clocked = true → s.mot.stopPending = true → s.mot.stopped = false → rd = true ∨ s.tailVerified = true →
      ∃ t, exec .backhitchDecelerate s = .next t ∧ t.flag F.PACE_STAT.STOPPED = true ∧
        t.fld F.PACE_CNT.BACKHITCH = up 16 (s.fld F.PACE_CNT.BACKHITCH) ∧
        t.mot = { s.mot with
          stopPending := false, stopped := true, below := 0, readHigh := 0, target := 0, backAt := 0, backGoal := s.runUp,
          reversing := false, waiting := false } ∧
        t.wrc = { s.wrc with idleSent := 0 } ∧ OnlyRegs [0xF00820, 0xF00824] s { t with mot := s.mot, wrc := s.wrc }) ∧
    (s.mot.stopped = false ∨ s.mot.waiting = false ∨ s.mayResume = false → exec .backhitchResume s = .next s) ∧
    (s.clocked = true → s.mot.stopped = true → s.mayResume = true → ∃ t, exec .backhitchResume s = .next t ∧ t.flag F.PACE_STAT.STOPPED = false ∧
      t.mot = { s.mot with stopped := false, waiting := false, target := if s.mot.reverse then -(goal : Int) else goal } ∧
      (rd = true → t.wrc = s.wrc ∧ ∀ j, j < 64 → s.chanOn j = true → t.flag F.RDC_CH_STAT.HUNT j = true) ∧
      (rd = false → ∀ j, j < 64 → t.wchan j = (s.wchan j).rewritten)) ∧
    (let u : Int := Max.max 800 (s.mot.target.natAbs : Int)
     s.clocked = true → s.mot.inDataZone = false → s.livePort 6 = 0 → ratAbs (s.livePort 5) < 1 / 1000 → exec .turnaround s =
       .next { s with mot := { s.mot with reverse := !s.mot.reverse, target := if s.mot.reverse then u else -u } }) ∧
    (s.mot.inDataZone = true ∨ s.livePort 6 ≠ 0 ∨ 1 / 1000 ≤ ratAbs (s.livePort 5) → exec .turnaround s = .next s)

/-! ## The machine as a whole -/

/-- A step takes the command at the front of the queue and runs it with the queue's rest; what runs is the command as it was put.
With nothing waiting the block idles: a millisecond passes (log entry 3). -/
def Obligations.StepRunsFront : Prop :=
  ∀ (c : Instr) (s : State),
    step { s with pending := c :: s.pending } = exec c s ∧ (s.pending = [] → step s = .next s.idleTick)

/-- R1, R17, R434, R459: right after VIN power-on nothing waits, no register differs from its Reset column, memories, queues and
engines are empty, every core is stopped, and the state has the forms that the other statements ask for.
The model's own readings in it: log entry 1 (DEDUCED), log entry 2 (DESIGN CHOICE). -/
def Obligations.ResetState : Prop :=
  State.reset.pending = [] ∧ State.reset.canonical = true ∧ Orderly State.reset ∧ OnTarget State.reset ∧
    (∀ a, State.reset.reg a = resetOf a) ∧ (∀ n, (State.reset.core n).run = .stopped) ∧ (∀ a, State.reset.memByte a = 0) ∧
    (∀ t, State.reset.cmds t = []) ∧ State.reset.held = [] ∧ (∀ n, State.reset.key n = {}) ∧ State.reset.out = [] ∧
    State.reset.fld F.PWR_STAT.STATE = 0 ∧ State.reset.afeHeld = false

/-- Every step keeps the sparse parts of the state in their one canonical form: from every state that has it, whatever command
stands in front. -/
def Obligations.StepKeepsCanonical : Prop :=
  ∀ s t : State, s.canonical = true → step s = .next t → t.canonical = true

/-- Every step keeps the units' own parts in canonical form, and keeps every waiting command with the engine that accepted it. -/
def Obligations.StepKeepsOrder : Prop :=
  ∀ s t : State, s.canonical = true → Orderly s → OnTarget s → step s = .next t → Orderly t ∧ OnTarget t
end

