-- ==== Sys2Proof/Laws/SMap.lean ====
section
/-!
SUPPORT. The laws of sparse storage: a read after a write, and that every operation keeps the canonical form.
-/
set_option linter.unusedSectionVars false

namespace Sys2Proof.SMap

variable {α : Type} [DecidableEq α] {d : Nat → α}

theorem above_of_le {lo hi : Nat} {m : SMap α} (h : lo ≤ hi) : above hi m = true → above lo m = true := by
  cases m with
  | nil => intro _; rfl
  | cons e m => simp only [above, Bool.and_eq_true, decide_eq_true_eq]; exact fun ⟨a, b⟩ => ⟨by omega, b⟩

theorem sorted_of_above {lo : Nat} {m : SMap α} : above lo m = true → sorted m = true := by
  cases m with
  | nil => intro _; rfl
  | cons e m => simp only [above, sorted, Bool.and_eq_true]; exact fun h => h.2

theorem find?_above {lo a : Nat} {m : SMap α} (h : above lo m = true) (ha : a ≤ lo) : find? m a = none := by
  induction m generalizing lo with
  | nil => rfl
  | cons e m ih =>
    simp only [above, Bool.and_eq_true, decide_eq_true_eq] at h
    have h1 : a ≠ e.1 := by omega
    have h2 : a < e.1 := by omega
    simp [find?, h1, h2]

theorem above_drop1 {lo a : Nat} {m : SMap α} (h : above lo m = true) : above lo (drop1 m a) = true := by
  induction m generalizing lo with
  | nil => rfl
  | cons e m ih =>
    simp only [above, Bool.and_eq_true, decide_eq_true_eq] at h
    simp only [drop1]
    split
    · exact above_of_le (by omega) h.2
    · split
      · simp [above, h.1, h.2]
      · simp [above, h.1, ih h.2]

theorem above_put {lo a : Nat} {x : α} {m : SMap α} (h : above lo m = true) (ha : lo < a) : above lo (put m a x) = true := by
  induction m generalizing lo with
  | nil => simp [put, above, ha]
  | cons e m ih =>
    simp only [above, Bool.and_eq_true, decide_eq_true_eq] at h
    simp only [put]
    split
    · rename_i hk; subst hk; simp [above, h.1, h.2]
    · split
      · rename_i hlt; simp [above, ha, hlt, h.2]
      · simp [above, h.1, ih h.2 (by omega)]

theorem sorted_drop1 {a : Nat} {m : SMap α} (h : sorted m = true) : sorted (drop1 m a) = true := by
  cases m with
  | nil => rfl
  | cons e m =>
    simp only [sorted] at h
    simp only [drop1]
    split
    · exact sorted_of_above h
    · split
      · exact h
      · exact above_drop1 h

theorem sorted_put {a : Nat} {x : α} {m : SMap α} (h : sorted m = true) : sorted (put m a x) = true := by
  cases m with
  | nil => rfl
  | cons e m =>
    simp only [sorted] at h
    simp only [put]
    split
    · rename_i hk; subst hk; exact h
    · split
      · rename_i hlt; simp [sorted, above, hlt, h]
      · rename_i h1 h2; exact above_put h (by omega)

theorem mem_drop1 {a : Nat} {e : Nat × α} {m : SMap α} (h : e ∈ drop1 m a) : e ∈ m := by
  induction m with
  | nil => exact h
  | cons f m ih =>
    simp only [drop1] at h
    split at h
    · exact List.mem_cons_of_mem _ h
    · split at h
      · exact h
      · rcases List.mem_cons.1 h with h | h
        · exact h ▸ List.mem_cons_self
        · exact List.mem_cons_of_mem _ (ih h)

theorem mem_put {a : Nat} {x : α} {e : Nat × α} {m : SMap α} (h : e ∈ put m a x) : e = (a, x) ∨ e ∈ m := by
  induction m with
  | nil => exact .inl (by simpa [put] using h)
  | cons f m ih =>
    simp only [put] at h
    split at h
    · rcases List.mem_cons.1 h with h | h
      · exact .inl h
      · exact .inr (List.mem_cons_of_mem _ h)
    · split at h
      · rcases List.mem_cons.1 h with h | h
        · exact .inl h
        · exact .inr h
      · rcases List.mem_cons.1 h with h | h
        · exact .inr (h ▸ List.mem_cons_self)
        · exact (ih h).imp id (List.mem_cons_of_mem _)

theorem wf_nil : wf d ([] : SMap α) = true := rfl

theorem wf_sorted {m : SMap α} (h : wf d m = true) : sorted m = true := by
  simp only [wf, Bool.and_eq_true] at h; exact h.1

theorem wf_entry {m : SMap α} (h : wf d m = true) {e : Nat × α} (he : e ∈ m) : e.2 ≠ d e.1 := by
  simp only [wf, Bool.and_eq_true, List.all_eq_true, decide_eq_true_eq] at h; exact h.2 e he

theorem wf_of {m : SMap α} (h : sorted m = true) (h' : ∀ e ∈ m, e.2 ≠ d e.1) : wf d m = true := by
  simp only [wf, Bool.and_eq_true, List.all_eq_true, decide_eq_true_eq]; exact ⟨h, h'⟩

/-- A write keeps the canonical form. -/
theorem wf_set {m : SMap α} {a : Nat} {x : α} (h : wf d m = true) : wf d (set d m a x) = true := by
  simp only [set]
  split
  · exact wf_of (sorted_drop1 (wf_sorted h)) fun e he => wf_entry h (mem_drop1 he)
  · rename_i hx
    refine wf_of (sorted_put (wf_sorted h)) fun e he => ?_
    rcases mem_put he with rfl | he
    · exact hx
    · exact wf_entry h he

/-- A run of writes keeps the canonical form. -/
theorem wf_store {l : List α} {m : SMap α} {a : Nat} (h : wf d m = true) : wf d (store d m a l) = true := by
  induction l generalizing m a with
  | nil => exact h
  | cons x xs ih => exact ih (wf_set h)

theorem above_filter {p : Nat × α → Bool} {lo : Nat} {m : SMap α} (h : above lo m = true) :
    above lo (m.filter p) = true := by
  induction m generalizing lo with
  | nil => rfl
  | cons e m ih =>
    simp only [above, Bool.and_eq_true, decide_eq_true_eq] at h
    simp only [List.filter_cons]
    split
    · simp [above, h.1, ih h.2]
    · exact above_of_le (Nat.le_of_lt h.1) (ih h.2)

theorem sorted_filter {p : Nat × α → Bool} {m : SMap α} (h : sorted m = true) : sorted (m.filter p) = true := by
  cases m with
  | nil => rfl
  | cons e m =>
    simp only [sorted] at h
    simp only [List.filter_cons]
    split
    · exact above_filter h
    · exact sorted_of_above (above_filter h)

/-- Taking entries out keeps the canonical form. -/
theorem wf_filter {p : Nat × α → Bool} {m : SMap α} (h : wf d m = true) : wf d (m.filter p) = true :=
  wf_of (sorted_filter (wf_sorted h)) fun _ he => wf_entry h (List.mem_filter.1 he).1

theorem above_mapTo {f : Nat → α → α} {lo : Nat} {m : SMap α} (h : above lo m = true) : above lo (m.mapTo d f) = true := by
  induction m generalizing lo with
  | nil => rfl
  | cons e m ih =>
    simp only [above, Bool.and_eq_true, decide_eq_true_eq] at h
    simp only [mapTo, List.filterMap_cons]
    split
    · rename_i h1
      split at h1
      · exact ih (above_of_le (Nat.le_of_lt h.1) h.2)
      · cases h1
    · rename_i h1
      split at h1
      · cases h1
      · cases h1; simp only [above, Bool.and_eq_true, decide_eq_true_eq]; exact ⟨h.1, ih h.2⟩

theorem wf_mapTo {f : Nat → α → α} {m : SMap α} (h : wf d m = true) : wf d (m.mapTo d f) = true := by
  refine wf_of ?_ fun e he => ?_
  · have hs := wf_sorted h
    cases m with
    | nil => rfl
    | cons e m =>
      simp only [mapTo, List.filterMap_cons]
      split
      · exact sorted_of_above (above_mapTo hs)
      · rename_i h1
        split at h1
        · cases h1
        · cases h1; exact above_mapTo hs
  · simp only [mapTo, List.mem_filterMap] at he
    obtain ⟨a, -, ha⟩ := he
    split at ha
    · cases ha
    · rename_i hn; cases ha; exact hn

theorem wf_clear {m : SMap α} {lo n : Nat} (h : wf d m = true) : wf d (clear m lo n) = true := wf_filter h

theorem find?_drop1_self {a : Nat} {m : SMap α} (h : sorted m = true) : find? (drop1 m a) a = none := by
  induction m with
  | nil => rfl
  | cons e m ih =>
    simp only [sorted] at h
    simp only [drop1]
    split
    · rename_i hk; subst hk; exact find?_above h (Nat.le_refl _)
    · split
      · rename_i h1 h2; simp [find?, h1, h2]
      · rename_i h1 h2; simp [find?, h1, h2, ih (sorted_of_above h)]

theorem find?_drop1_ne {a b : Nat} {m : SMap α} (h : sorted m = true) (hb : b ≠ a) : find? (drop1 m a) b = find? m b := by
  induction m with
  | nil => rfl
  | cons e m ih =>
    simp only [sorted] at h
    simp only [drop1]
    split
    · rename_i hk; subst hk
      by_cases hlt : b < e.1
      · simp [find?, hb, hlt, find?_above h (Nat.le_of_lt hlt)]
      · simp [find?, hb, hlt]
    · split
      · rfl
      · simp [find?, ih (sorted_of_above h)]

theorem find?_put_self {a : Nat} {x : α} {m : SMap α} : find? (put m a x) a = some x := by
  induction m with
  | nil => simp [put, find?]
  | cons e m ih =>
    simp only [put]
    split
    · simp [find?]
    · split
      · simp [find?]
      · rename_i h1 h2; simp [find?, h1, h2, ih]

theorem find?_put_ne {a b : Nat} {x : α} {m : SMap α} (hb : b ≠ a) : find? (put m a x) b = find? m b := by
  induction m with
  | nil =>
    simp only [put, find?, if_neg hb]
    split <;> rfl
  | cons e m ih =>
    simp only [put]
    split
    · rename_i hk; subst hk; simp [find?, hb]
    · split
      · rename_i h1 h2
        by_cases hlt : b < a
        · have h3 : b ≠ e.1 := by omega
          have h4 : b < e.1 := by omega
          simp [find?, hb, hlt, h3, h4]
        · simp [find?, hb, hlt]
      · simp [find?, ih]

/-- A read after a write to the same key gives the value written. -/
theorem get_set_self {m : SMap α} {a : Nat} {x : α} (h : wf d m = true) : get d (set d m a x) a = x := by
  simp only [set]
  split
  · rename_i hx; simp [get, find?_drop1_self (wf_sorted h), hx]
  · simp [get, find?_put_self]

/-- A write leaves every other key alone. -/
theorem get_set_ne {m : SMap α} {a b : Nat} {x : α} (h : wf d m = true) (hb : b ≠ a) :
    get d (set d m a x) b = get d m b := by
  simp only [set]
  split
  · simp [get, find?_drop1_ne (wf_sorted h) hb]
  · simp [get, find?_put_ne hb]

theorem get_set {m : SMap α} {a b : Nat} {x : α} (h : wf d m = true) :
    get d (set d m a x) b = if b = a then x else get d m b := by
  split
  · rename_i hb; subst hb; exact get_set_self h
  · rename_i hb; exact get_set_ne h hb

/-- What a run of writes leaves at a key. -/
theorem get_store {l : List α} {m : SMap α} {a b : Nat} (h : wf d m = true) :
    get d (store d m a l) b = if a ≤ b ∧ b < a + l.length then l.getD (b - a) (d b) else get d m b := by
  induction l generalizing m a with
  | nil => simp [store] <;> omega
  | cons x xs ih =>
    simp only [store, ih (wf_set h), get_set h, List.length_cons]
    by_cases h1 : a + 1 ≤ b ∧ b < a + 1 + xs.length
    · have h2 : a ≤ b ∧ b < a + (xs.length + 1) := by omega
      have h3 : b - a = (b - (a + 1)) + 1 := by omega
      simp only [h1, h2, h3, and_self, if_true, List.getD_cons_succ]
    · by_cases h2 : b = a
      · subst h2
        have h3 : b ≤ b ∧ b < b + (xs.length + 1) := by omega
        rw [if_neg h1, if_pos rfl, if_pos h3]; simp
      · have h3 : ¬(a ≤ b ∧ b < a + (xs.length + 1)) := by omega
        simp only [h1, h2, h3, if_false]

theorem find?_mem {m : SMap α} {a : Nat} {x : α} (h : find? m a = some x) : (a, x) ∈ m := by
  induction m with
  | nil => simp [find?] at h
  | cons e m ih =>
    simp only [find?] at h
    split at h
    · rename_i hk; cases h; subst hk; exact List.mem_cons_self
    · split at h
      · cases h
      · exact List.mem_cons_of_mem _ (ih h)

theorem find?_filter_pos {p : Nat × α → Bool} {m : SMap α} {a : Nat} (h : sorted m = true) (hp : ∀ x, p (a, x) = true) :
    find? (m.filter p) a = find? m a := by
  induction m with
  | nil => rfl
  | cons e m ih =>
    simp only [sorted] at h
    simp only [List.filter_cons]
    by_cases hk : a = e.1
    · subst hk
      have : p e = true := hp e.2
      simp [this, find?]
    · split
      · simp [find?, hk, ih (sorted_of_above h)]
      · rw [ih (sorted_of_above h)]
        by_cases hlt : a < e.1
        · simp [find?, hk, hlt, find?_above h (Nat.le_of_lt hlt)]
        · simp [find?, hk, hlt]

/-- Outside a range that is cleared every key reads as before. -/
theorem get_clear_ne {m : SMap α} {lo n a : Nat} (h : wf d m = true) (ha : a < lo ∨ lo + n ≤ a) :
    get d (clear m lo n) a = get d m a := by
  simp only [get, clear]
  rw [find?_filter_pos (wf_sorted h) (by intro x; rcases ha with ha | ha <;> simp [ha])]

/-- A cleared range reads as unlisted. -/
theorem get_clear_in {m : SMap α} {lo n a : Nat} (h1 : lo ≤ a) (h2 : a < lo + n) : get d (clear m lo n) a = d a := by
  simp only [get]
  cases hf : find? (clear m lo n) a with
  | none => rfl
  | some x =>
    have := (List.mem_filter.1 (find?_mem hf)).2
    simp only [decide_eq_true_eq, Bool.or_eq_true] at this
    omega

/-- The empty map reads as unlisted everywhere. -/
theorem get_nil {a : Nat} : get d ([] : SMap α) a = d a := rfl

/-- Writing what a key reads as already changes nothing. -/
theorem set_get_self {m : SMap α} {a : Nat} (h : wf d m = true) : set d m a (get d m a) = m := by
  induction m with
  | nil => simp [get, find?, set, drop1]
  | cons e m ih =>
    have hs := wf_sorted h
    simp only [sorted] at hs
    have hw : wf d m = true := wf_of (sorted_of_above hs) fun f hf => wf_entry h (List.mem_cons_of_mem _ hf)
    by_cases hk : a = e.1
    · subst hk
      have hne : e.2 ≠ d e.1 := wf_entry h List.mem_cons_self
      simp [get, find?, set, hne, put]
    · by_cases hlt : a < e.1
      · simp [get, find?, hk, hlt, set, drop1]
      · have hg : get d (e :: m) a = get d m a := by simp [get, find?, hk, hlt]
        rw [hg]
        have := ih hw
        simp only [set] at this ⊢
        split at this
        · rename_i hd; simp [hd, drop1, hk, hlt, this]
        · rename_i hd; simp [hd, put, hk, hlt, this]

theorem get_cons_self {e : Nat × α} {m : SMap α} : get d (e :: m) e.1 = e.2 := by simp [get, find?]

theorem get_cons_gt {e : Nat × α} {m : SMap α} {a : Nat} (h : e.1 < a) : get d (e :: m) a = get d m a := by
  have h1 : a ≠ e.1 := by omega
  have h2 : ¬a < e.1 := by omega
  simp [get, find?, h1, h2]

theorem get_above {lo a : Nat} {m : SMap α} (h : above lo m = true) (ha : a ≤ lo) : get d m a = d a := by
  simp [get, find?_above h ha]

theorem wf_tail {e : Nat × α} {m : SMap α} (h : wf d (e :: m) = true) : wf d m = true :=
  wf_of (sorted_of_above (wf_sorted h)) fun _ hf => wf_entry h (List.mem_cons_of_mem _ hf)

theorem get_cons_lt {e : Nat × α} {m : SMap α} {a : Nat} (h : a < e.1) : get d (e :: m) a = d a := by
  have h1 : a ≠ e.1 := by omega
  simp [get, find?, h1, h]

/-- Two maps in canonical form that read alike everywhere are equal data. -/
theorem ext {m n : SMap α} (hm : wf d m = true) (hn : wf d n = true) (h : ∀ a, get d m a = get d n a) : m = n := by
  induction m generalizing n with
  | nil =>
    cases n with
    | nil => rfl
    | cons f n =>
      have := h f.1
      rw [get_cons_self, get_nil] at this
      exact absurd this.symm (wf_entry hn List.mem_cons_self)
  | cons e m ih =>
    cases n with
    | nil =>
      have := h e.1
      rw [get_cons_self, get_nil] at this
      exact absurd this (wf_entry hm List.mem_cons_self)
    | cons f n =>
      have hk : e.1 = f.1 := by
        rcases Nat.lt_trichotomy e.1 f.1 with hlt | heq | hlt
        · have := h e.1
          rw [get_cons_self, get_cons_lt hlt] at this
          exact absurd this (wf_entry hm List.mem_cons_self)
        · exact heq
        · have := h f.1
          rw [get_cons_self, get_cons_lt hlt] at this
          exact absurd this.symm (wf_entry hn List.mem_cons_self)
      have hv : e.2 = f.2 := by
        have := h e.1
        rw [get_cons_self, hk, get_cons_self] at this
        exact this
      have he : e = f := Prod.ext hk hv
      subst he
      congr 1
      refine ih (wf_tail hm) (wf_tail hn) fun a => ?_
      by_cases ha : e.1 < a
      · have := h a
        rwa [get_cons_gt ha, get_cons_gt ha] at this
      · rw [get_above (wf_sorted hm) (Nat.le_of_not_lt ha), get_above (wf_sorted hn) (Nat.le_of_not_lt ha)]

/-- The later of two writes to one key stands alone. -/
theorem set_set {m : SMap α} {a : Nat} {x y : α} (h : wf d m = true) : set d (set d m a x) a y = set d m a y := by
  refine ext (wf_set (wf_set h)) (wf_set h) fun b => ?_
  rw [get_set (wf_set h), get_set h, get_set h]
  split <;> rfl

/-- Writes to two keys commute. -/
theorem set_comm {m : SMap α} {a b : Nat} {x y : α} (h : wf d m = true) (hab : a ≠ b) :
    set d (set d m a x) b y = set d (set d m b y) a x := by
  refine ext (wf_set (wf_set h)) (wf_set (wf_set h)) fun c => ?_
  rw [get_set (wf_set h), get_set h, get_set (wf_set h), get_set h]
  by_cases h1 : c = a <;> by_cases h2 : c = b <;> simp_all

end Sys2Proof.SMap
end

