-- ==== Sys2Proof/Laws/State.lean ====
section
/-!
SUPPORT. What the small updates of the state leave alone: for each of them, one lemma over all the fields that it does not touch,
every one of them true by definition.
-/
namespace Sys2Proof.Machine

variable (s : State)

/-- `setReg` touches `regs` alone. -/
@[simp] theorem State.setReg_frame (a : Nat) (v : W32) :
    (s.setReg a v).pending = s.pending ∧ (s.setReg a v).cores = s.cores ∧ (s.setReg a v).load = s.load ∧
    (s.setReg a v).accepted = s.accepted ∧ (s.setReg a v).held = s.held ∧ (s.setReg a v).nextSeq = s.nextSeq ∧
    (s.setReg a v).txMark = s.txMark ∧ (s.setReg a v).txr = s.txr ∧ (s.setReg a v).mem = s.mem ∧
    (s.setReg a v).located = s.located ∧ (s.setReg a v).tiles = s.tiles ∧ (s.setReg a v).scrubAt = s.scrubAt ∧
    (s.setReg a v).scrubCount = s.scrubCount ∧ (s.setReg a v).lapStartMs = s.lapStartMs ∧ (s.setReg a v).bufs = s.bufs ∧
    (s.setReg a v).free = s.free ∧ (s.setReg a v).queues = s.queues ∧ (s.setReg a v).items = s.items ∧
    (s.setReg a v).lanes = s.lanes ∧ (s.setReg a v).slotLane = s.slotLane ∧ (s.setReg a v).coded = s.coded ∧
    (s.setReg a v).keys = s.keys ∧ (s.setReg a v).lockEnd = s.lockEnd ∧ (s.setReg a v).rchans = s.rchans ∧
    (s.setReg a v).calib = s.calib ∧ (s.setReg a v).fmt = s.fmt ∧ (s.setReg a v).wrc = s.wrc ∧ (s.setReg a v).mot = s.mot ∧
    (s.setReg a v).hst = s.hst ∧ (s.setReg a v).rng = s.rng ∧ (s.setReg a v).ump = s.ump ∧ (s.setReg a v).team = s.team ∧
    (s.setReg a v).pwr = s.pwr ∧ (s.setReg a v).boot = s.boot ∧ (s.setReg a v).aon = s.aon ∧ (s.setReg a v).aonMs = s.aonMs ∧
    (s.setReg a v).out = s.out ∧ (s.setReg a v).freeCtr = s.freeCtr :=
    ⟨rfl, rfl, rfl, rfl, rfl, rfl, rfl, rfl, rfl, rfl, rfl, rfl, rfl, rfl, rfl, rfl, rfl, rfl, rfl, rfl, rfl, rfl, rfl, rfl,
    rfl, rfl, rfl, rfl, rfl, rfl, rfl, rfl, rfl, rfl, rfl, rfl, rfl, rfl⟩

/-- `setFld` touches `regs` alone. -/
@[simp] theorem State.setFld_frame (f : Field) (x i : Nat) :
    (s.setFld f x i).pending = s.pending ∧ (s.setFld f x i).cores = s.cores ∧ (s.setFld f x i).load = s.load ∧
    (s.setFld f x i).accepted = s.accepted ∧ (s.setFld f x i).held = s.held ∧ (s.setFld f x i).nextSeq = s.nextSeq ∧
    (s.setFld f x i).txMark = s.txMark ∧ (s.setFld f x i).txr = s.txr ∧ (s.setFld f x i).mem = s.mem ∧
    (s.setFld f x i).located = s.located ∧ (s.setFld f x i).tiles = s.tiles ∧ (s.setFld f x i).scrubAt = s.scrubAt ∧
    (s.setFld f x i).scrubCount = s.scrubCount ∧ (s.setFld f x i).lapStartMs = s.lapStartMs ∧ (s.setFld f x i).bufs = s.bufs ∧
    (s.setFld f x i).free = s.free ∧ (s.setFld f x i).queues = s.queues ∧ (s.setFld f x i).items = s.items ∧
    (s.setFld f x i).lanes = s.lanes ∧ (s.setFld f x i).slotLane = s.slotLane ∧ (s.setFld f x i).coded = s.coded ∧
    (s.setFld f x i).keys = s.keys ∧ (s.setFld f x i).lockEnd = s.lockEnd ∧ (s.setFld f x i).rchans = s.rchans ∧
    (s.setFld f x i).calib = s.calib ∧ (s.setFld f x i).fmt = s.fmt ∧ (s.setFld f x i).wrc = s.wrc ∧
    (s.setFld f x i).mot = s.mot ∧ (s.setFld f x i).hst = s.hst ∧ (s.setFld f x i).rng = s.rng ∧ (s.setFld f x i).ump = s.ump ∧
    (s.setFld f x i).team = s.team ∧ (s.setFld f x i).pwr = s.pwr ∧ (s.setFld f x i).boot = s.boot ∧
    (s.setFld f x i).aon = s.aon ∧ (s.setFld f x i).aonMs = s.aonMs ∧ (s.setFld f x i).out = s.out ∧
    (s.setFld f x i).freeCtr = s.freeCtr :=
    ⟨rfl, rfl, rfl, rfl, rfl, rfl, rfl, rfl, rfl, rfl, rfl, rfl, rfl, rfl, rfl, rfl, rfl, rfl, rfl, rfl, rfl, rfl, rfl, rfl,
    rfl, rfl, rfl, rfl, rfl, rfl, rfl, rfl, rfl, rfl, rfl, rfl, rfl, rfl⟩

/-- `setFlag` touches `regs` alone. -/
@[simp] theorem State.setFlag_frame (f : Field) (b : Bool) (i : Nat) :
    (s.setFlag f b i).pending = s.pending ∧ (s.setFlag f b i).cores = s.cores ∧ (s.setFlag f b i).load = s.load ∧
    (s.setFlag f b i).accepted = s.accepted ∧ (s.setFlag f b i).held = s.held ∧ (s.setFlag f b i).nextSeq = s.nextSeq ∧
    (s.setFlag f b i).txMark = s.txMark ∧ (s.setFlag f b i).txr = s.txr ∧ (s.setFlag f b i).mem = s.mem ∧
    (s.setFlag f b i).located = s.located ∧ (s.setFlag f b i).tiles = s.tiles ∧ (s.setFlag f b i).scrubAt = s.scrubAt ∧
    (s.setFlag f b i).scrubCount = s.scrubCount ∧ (s.setFlag f b i).lapStartMs = s.lapStartMs ∧
    (s.setFlag f b i).bufs = s.bufs ∧ (s.setFlag f b i).free = s.free ∧ (s.setFlag f b i).queues = s.queues ∧
    (s.setFlag f b i).items = s.items ∧ (s.setFlag f b i).lanes = s.lanes ∧ (s.setFlag f b i).slotLane = s.slotLane ∧
    (s.setFlag f b i).coded = s.coded ∧ (s.setFlag f b i).keys = s.keys ∧ (s.setFlag f b i).lockEnd = s.lockEnd ∧
    (s.setFlag f b i).rchans = s.rchans ∧ (s.setFlag f b i).calib = s.calib ∧ (s.setFlag f b i).fmt = s.fmt ∧
    (s.setFlag f b i).wrc = s.wrc ∧ (s.setFlag f b i).mot = s.mot ∧ (s.setFlag f b i).hst = s.hst ∧
    (s.setFlag f b i).rng = s.rng ∧ (s.setFlag f b i).ump = s.ump ∧ (s.setFlag f b i).team = s.team ∧
    (s.setFlag f b i).pwr = s.pwr ∧ (s.setFlag f b i).boot = s.boot ∧ (s.setFlag f b i).aon = s.aon ∧
    (s.setFlag f b i).aonMs = s.aonMs ∧ (s.setFlag f b i).out = s.out ∧ (s.setFlag f b i).freeCtr = s.freeCtr :=
    ⟨rfl, rfl, rfl, rfl, rfl, rfl, rfl, rfl, rfl, rfl, rfl, rfl, rfl, rfl, rfl, rfl, rfl, rfl, rfl, rfl, rfl, rfl, rfl, rfl,
    rfl, rfl, rfl, rfl, rfl, rfl, rfl, rfl, rfl, rfl, rfl, rfl, rfl, rfl⟩

/-- `raise` touches `regs` alone. -/
@[simp] theorem State.raise_frame (f : Field) (i : Nat) :
    (s.raise f i).pending = s.pending ∧ (s.raise f i).cores = s.cores ∧ (s.raise f i).load = s.load ∧
    (s.raise f i).accepted = s.accepted ∧ (s.raise f i).held = s.held ∧ (s.raise f i).nextSeq = s.nextSeq ∧
    (s.raise f i).txMark = s.txMark ∧ (s.raise f i).txr = s.txr ∧ (s.raise f i).mem = s.mem ∧
    (s.raise f i).located = s.located ∧ (s.raise f i).tiles = s.tiles ∧ (s.raise f i).scrubAt = s.scrubAt ∧
    (s.raise f i).scrubCount = s.scrubCount ∧ (s.raise f i).lapStartMs = s.lapStartMs ∧ (s.raise f i).bufs = s.bufs ∧
    (s.raise f i).free = s.free ∧ (s.raise f i).queues = s.queues ∧ (s.raise f i).items = s.items ∧
    (s.raise f i).lanes = s.lanes ∧ (s.raise f i).slotLane = s.slotLane ∧ (s.raise f i).coded = s.coded ∧
    (s.raise f i).keys = s.keys ∧ (s.raise f i).lockEnd = s.lockEnd ∧ (s.raise f i).rchans = s.rchans ∧
    (s.raise f i).calib = s.calib ∧ (s.raise f i).fmt = s.fmt ∧ (s.raise f i).wrc = s.wrc ∧ (s.raise f i).mot = s.mot ∧
    (s.raise f i).hst = s.hst ∧ (s.raise f i).rng = s.rng ∧ (s.raise f i).ump = s.ump ∧ (s.raise f i).team = s.team ∧
    (s.raise f i).pwr = s.pwr ∧ (s.raise f i).boot = s.boot ∧ (s.raise f i).aon = s.aon ∧ (s.raise f i).aonMs = s.aonMs ∧
    (s.raise f i).out = s.out ∧ (s.raise f i).freeCtr = s.freeCtr :=
    ⟨rfl, rfl, rfl, rfl, rfl, rfl, rfl, rfl, rfl, rfl, rfl, rfl, rfl, rfl, rfl, rfl, rfl, rfl, rfl, rfl, rfl, rfl, rfl, rfl,
    rfl, rfl, rfl, rfl, rfl, rfl, rfl, rfl, rfl, rfl, rfl, rfl, rfl, rfl⟩

/-- `bump` touches `regs` alone. -/
@[simp] theorem State.bump_frame (f : Field) (n i : Nat) :
    (s.bump f n i).pending = s.pending ∧ (s.bump f n i).cores = s.cores ∧ (s.bump f n i).load = s.load ∧
    (s.bump f n i).accepted = s.accepted ∧ (s.bump f n i).held = s.held ∧ (s.bump f n i).nextSeq = s.nextSeq ∧
    (s.bump f n i).txMark = s.txMark ∧ (s.bump f n i).txr = s.txr ∧ (s.bump f n i).mem = s.mem ∧
    (s.bump f n i).located = s.located ∧ (s.bump f n i).tiles = s.tiles ∧ (s.bump f n i).scrubAt = s.scrubAt ∧
    (s.bump f n i).scrubCount = s.scrubCount ∧ (s.bump f n i).lapStartMs = s.lapStartMs ∧ (s.bump f n i).bufs = s.bufs ∧
    (s.bump f n i).free = s.free ∧ (s.bump f n i).queues = s.queues ∧ (s.bump f n i).items = s.items ∧
    (s.bump f n i).lanes = s.lanes ∧ (s.bump f n i).slotLane = s.slotLane ∧ (s.bump f n i).coded = s.coded ∧
    (s.bump f n i).keys = s.keys ∧ (s.bump f n i).lockEnd = s.lockEnd ∧ (s.bump f n i).rchans = s.rchans ∧
    (s.bump f n i).calib = s.calib ∧ (s.bump f n i).fmt = s.fmt ∧ (s.bump f n i).wrc = s.wrc ∧ (s.bump f n i).mot = s.mot ∧
    (s.bump f n i).hst = s.hst ∧ (s.bump f n i).rng = s.rng ∧ (s.bump f n i).ump = s.ump ∧ (s.bump f n i).team = s.team ∧
    (s.bump f n i).pwr = s.pwr ∧ (s.bump f n i).boot = s.boot ∧ (s.bump f n i).aon = s.aon ∧ (s.bump f n i).aonMs = s.aonMs ∧
    (s.bump f n i).out = s.out ∧ (s.bump f n i).freeCtr = s.freeCtr :=
    ⟨rfl, rfl, rfl, rfl, rfl, rfl, rfl, rfl, rfl, rfl, rfl, rfl, rfl, rfl, rfl, rfl, rfl, rfl, rfl, rfl, rfl, rfl, rfl, rfl,
    rfl, rfl, rfl, rfl, rfl, rfl, rfl, rfl, rfl, rfl, rfl, rfl, rfl, rfl⟩

/-- `setSfld` touches `regs` alone. -/
@[simp] theorem State.setSfld_frame (f : Field) (x : Int) (i : Nat) :
    (s.setSfld f x i).pending = s.pending ∧ (s.setSfld f x i).cores = s.cores ∧ (s.setSfld f x i).load = s.load ∧
    (s.setSfld f x i).accepted = s.accepted ∧ (s.setSfld f x i).held = s.held ∧ (s.setSfld f x i).nextSeq = s.nextSeq ∧
    (s.setSfld f x i).txMark = s.txMark ∧ (s.setSfld f x i).txr = s.txr ∧ (s.setSfld f x i).mem = s.mem ∧
    (s.setSfld f x i).located = s.located ∧ (s.setSfld f x i).tiles = s.tiles ∧ (s.setSfld f x i).scrubAt = s.scrubAt ∧
    (s.setSfld f x i).scrubCount = s.scrubCount ∧ (s.setSfld f x i).lapStartMs = s.lapStartMs ∧
    (s.setSfld f x i).bufs = s.bufs ∧ (s.setSfld f x i).free = s.free ∧ (s.setSfld f x i).queues = s.queues ∧
    (s.setSfld f x i).items = s.items ∧ (s.setSfld f x i).lanes = s.lanes ∧ (s.setSfld f x i).slotLane = s.slotLane ∧
    (s.setSfld f x i).coded = s.coded ∧ (s.setSfld f x i).keys = s.keys ∧ (s.setSfld f x i).lockEnd = s.lockEnd ∧
    (s.setSfld f x i).rchans = s.rchans ∧ (s.setSfld f x i).calib = s.calib ∧ (s.setSfld f x i).fmt = s.fmt ∧
    (s.setSfld f x i).wrc = s.wrc ∧ (s.setSfld f x i).mot = s.mot ∧ (s.setSfld f x i).hst = s.hst ∧
    (s.setSfld f x i).rng = s.rng ∧ (s.setSfld f x i).ump = s.ump ∧ (s.setSfld f x i).team = s.team ∧
    (s.setSfld f x i).pwr = s.pwr ∧ (s.setSfld f x i).boot = s.boot ∧ (s.setSfld f x i).aon = s.aon ∧
    (s.setSfld f x i).aonMs = s.aonMs ∧ (s.setSfld f x i).out = s.out ∧ (s.setSfld f x i).freeCtr = s.freeCtr :=
    ⟨rfl, rfl, rfl, rfl, rfl, rfl, rfl, rfl, rfl, rfl, rfl, rfl, rfl, rfl, rfl, rfl, rfl, rfl, rfl, rfl, rfl, rfl, rfl, rfl,
    rfl, rfl, rfl, rfl, rfl, rfl, rfl, rfl, rfl, rfl, rfl, rfl, rfl, rfl⟩

/-- `emit` touches `out` alone. -/
@[simp] theorem State.emit_frame (o : Out) :
    (s.emit o).pending = s.pending ∧ (s.emit o).regs = s.regs ∧ (s.emit o).cores = s.cores ∧ (s.emit o).load = s.load ∧
    (s.emit o).accepted = s.accepted ∧ (s.emit o).held = s.held ∧ (s.emit o).nextSeq = s.nextSeq ∧
    (s.emit o).txMark = s.txMark ∧ (s.emit o).txr = s.txr ∧ (s.emit o).mem = s.mem ∧ (s.emit o).located = s.located ∧
    (s.emit o).tiles = s.tiles ∧ (s.emit o).scrubAt = s.scrubAt ∧ (s.emit o).scrubCount = s.scrubCount ∧
    (s.emit o).lapStartMs = s.lapStartMs ∧ (s.emit o).bufs = s.bufs ∧ (s.emit o).free = s.free ∧ (s.emit o).queues = s.queues ∧
    (s.emit o).items = s.items ∧ (s.emit o).lanes = s.lanes ∧ (s.emit o).slotLane = s.slotLane ∧ (s.emit o).coded = s.coded ∧
    (s.emit o).keys = s.keys ∧ (s.emit o).lockEnd = s.lockEnd ∧ (s.emit o).rchans = s.rchans ∧ (s.emit o).calib = s.calib ∧
    (s.emit o).fmt = s.fmt ∧ (s.emit o).wrc = s.wrc ∧ (s.emit o).mot = s.mot ∧ (s.emit o).hst = s.hst ∧ (s.emit o).rng = s.rng ∧
    (s.emit o).ump = s.ump ∧ (s.emit o).team = s.team ∧ (s.emit o).pwr = s.pwr ∧ (s.emit o).boot = s.boot ∧
    (s.emit o).aon = s.aon ∧ (s.emit o).aonMs = s.aonMs ∧ (s.emit o).freeCtr = s.freeCtr :=
    ⟨rfl, rfl, rfl, rfl, rfl, rfl, rfl, rfl, rfl, rfl, rfl, rfl, rfl, rfl, rfl, rfl, rfl, rfl, rfl, rfl, rfl, rfl, rfl, rfl,
    rfl, rfl, rfl, rfl, rfl, rfl, rfl, rfl, rfl, rfl, rfl, rfl, rfl, rfl⟩

/-- `nextFree` touches `freeCtr` alone. -/
@[simp] theorem State.nextFree_frame :
    (s.nextFree).pending = s.pending ∧ (s.nextFree).regs = s.regs ∧ (s.nextFree).cores = s.cores ∧ (s.nextFree).load = s.load ∧
    (s.nextFree).accepted = s.accepted ∧ (s.nextFree).held = s.held ∧ (s.nextFree).nextSeq = s.nextSeq ∧
    (s.nextFree).txMark = s.txMark ∧ (s.nextFree).txr = s.txr ∧ (s.nextFree).mem = s.mem ∧ (s.nextFree).located = s.located ∧
    (s.nextFree).tiles = s.tiles ∧ (s.nextFree).scrubAt = s.scrubAt ∧ (s.nextFree).scrubCount = s.scrubCount ∧
    (s.nextFree).lapStartMs = s.lapStartMs ∧ (s.nextFree).bufs = s.bufs ∧ (s.nextFree).free = s.free ∧
    (s.nextFree).queues = s.queues ∧ (s.nextFree).items = s.items ∧ (s.nextFree).lanes = s.lanes ∧
    (s.nextFree).slotLane = s.slotLane ∧ (s.nextFree).coded = s.coded ∧ (s.nextFree).keys = s.keys ∧
    (s.nextFree).lockEnd = s.lockEnd ∧ (s.nextFree).rchans = s.rchans ∧ (s.nextFree).calib = s.calib ∧
    (s.nextFree).fmt = s.fmt ∧ (s.nextFree).wrc = s.wrc ∧ (s.nextFree).mot = s.mot ∧ (s.nextFree).hst = s.hst ∧
    (s.nextFree).rng = s.rng ∧ (s.nextFree).ump = s.ump ∧ (s.nextFree).team = s.team ∧ (s.nextFree).pwr = s.pwr ∧
    (s.nextFree).boot = s.boot ∧ (s.nextFree).aon = s.aon ∧ (s.nextFree).aonMs = s.aonMs ∧ (s.nextFree).out = s.out :=
    ⟨rfl, rfl, rfl, rfl, rfl, rfl, rfl, rfl, rfl, rfl, rfl, rfl, rfl, rfl, rfl, rfl, rfl, rfl, rfl, rfl, rfl, rfl, rfl, rfl,
    rfl, rfl, rfl, rfl, rfl, rfl, rfl, rfl, rfl, rfl, rfl, rfl, rfl, rfl⟩

/-- `setCore` touches `cores` alone. -/
@[simp] theorem State.setCore_frame (n : Nat) (c : Core) :
    (s.setCore n c).pending = s.pending ∧ (s.setCore n c).regs = s.regs ∧ (s.setCore n c).load = s.load ∧
    (s.setCore n c).accepted = s.accepted ∧ (s.setCore n c).held = s.held ∧ (s.setCore n c).nextSeq = s.nextSeq ∧
    (s.setCore n c).txMark = s.txMark ∧ (s.setCore n c).txr = s.txr ∧ (s.setCore n c).mem = s.mem ∧
    (s.setCore n c).located = s.located ∧ (s.setCore n c).tiles = s.tiles ∧ (s.setCore n c).scrubAt = s.scrubAt ∧
    (s.setCore n c).scrubCount = s.scrubCount ∧ (s.setCore n c).lapStartMs = s.lapStartMs ∧ (s.setCore n c).bufs = s.bufs ∧
    (s.setCore n c).free = s.free ∧ (s.setCore n c).queues = s.queues ∧ (s.setCore n c).items = s.items ∧
    (s.setCore n c).lanes = s.lanes ∧ (s.setCore n c).slotLane = s.slotLane ∧ (s.setCore n c).coded = s.coded ∧
    (s.setCore n c).keys = s.keys ∧ (s.setCore n c).lockEnd = s.lockEnd ∧ (s.setCore n c).rchans = s.rchans ∧
    (s.setCore n c).calib = s.calib ∧ (s.setCore n c).fmt = s.fmt ∧ (s.setCore n c).wrc = s.wrc ∧ (s.setCore n c).mot = s.mot ∧
    (s.setCore n c).hst = s.hst ∧ (s.setCore n c).rng = s.rng ∧ (s.setCore n c).ump = s.ump ∧ (s.setCore n c).team = s.team ∧
    (s.setCore n c).pwr = s.pwr ∧ (s.setCore n c).boot = s.boot ∧ (s.setCore n c).aon = s.aon ∧
    (s.setCore n c).aonMs = s.aonMs ∧ (s.setCore n c).out = s.out ∧ (s.setCore n c).freeCtr = s.freeCtr :=
    ⟨rfl, rfl, rfl, rfl, rfl, rfl, rfl, rfl, rfl, rfl, rfl, rfl, rfl, rfl, rfl, rfl, rfl, rfl, rfl, rfl, rfl, rfl, rfl, rfl,
    rfl, rfl, rfl, rfl, rfl, rfl, rfl, rfl, rfl, rfl, rfl, rfl, rfl, rfl⟩

/-- `signal` touches `cores` alone. -/
@[simp] theorem State.signal_frame (n : Nat) :
    (s.signal n).pending = s.pending ∧ (s.signal n).regs = s.regs ∧ (s.signal n).load = s.load ∧
    (s.signal n).accepted = s.accepted ∧ (s.signal n).held = s.held ∧ (s.signal n).nextSeq = s.nextSeq ∧
    (s.signal n).txMark = s.txMark ∧ (s.signal n).txr = s.txr ∧ (s.signal n).mem = s.mem ∧ (s.signal n).located = s.located ∧
    (s.signal n).tiles = s.tiles ∧ (s.signal n).scrubAt = s.scrubAt ∧ (s.signal n).scrubCount = s.scrubCount ∧
    (s.signal n).lapStartMs = s.lapStartMs ∧ (s.signal n).bufs = s.bufs ∧ (s.signal n).free = s.free ∧
    (s.signal n).queues = s.queues ∧ (s.signal n).items = s.items ∧ (s.signal n).lanes = s.lanes ∧
    (s.signal n).slotLane = s.slotLane ∧ (s.signal n).coded = s.coded ∧ (s.signal n).keys = s.keys ∧
    (s.signal n).lockEnd = s.lockEnd ∧ (s.signal n).rchans = s.rchans ∧ (s.signal n).calib = s.calib ∧
    (s.signal n).fmt = s.fmt ∧ (s.signal n).wrc = s.wrc ∧ (s.signal n).mot = s.mot ∧ (s.signal n).hst = s.hst ∧
    (s.signal n).rng = s.rng ∧ (s.signal n).ump = s.ump ∧ (s.signal n).team = s.team ∧ (s.signal n).pwr = s.pwr ∧
    (s.signal n).boot = s.boot ∧ (s.signal n).aon = s.aon ∧ (s.signal n).aonMs = s.aonMs ∧ (s.signal n).out = s.out ∧
    (s.signal n).freeCtr = s.freeCtr :=
    ⟨rfl, rfl, rfl, rfl, rfl, rfl, rfl, rfl, rfl, rfl, rfl, rfl, rfl, rfl, rfl, rfl, rfl, rfl, rfl, rfl, rfl, rfl, rfl, rfl,
    rfl, rfl, rfl, rfl, rfl, rfl, rfl, rfl, rfl, rfl, rfl, rfl, rfl, rfl⟩

/-- `memStore` touches `mem` and `located` alone. -/
@[simp] theorem State.memStore_frame (a : Nat) (l : List Byte) :
    (s.memStore a l).pending = s.pending ∧ (s.memStore a l).regs = s.regs ∧ (s.memStore a l).cores = s.cores ∧
    (s.memStore a l).load = s.load ∧ (s.memStore a l).accepted = s.accepted ∧ (s.memStore a l).held = s.held ∧
    (s.memStore a l).nextSeq = s.nextSeq ∧ (s.memStore a l).txMark = s.txMark ∧ (s.memStore a l).txr = s.txr ∧
    (s.memStore a l).tiles = s.tiles ∧ (s.memStore a l).scrubAt = s.scrubAt ∧ (s.memStore a l).scrubCount = s.scrubCount ∧
    (s.memStore a l).lapStartMs = s.lapStartMs ∧ (s.memStore a l).bufs = s.bufs ∧ (s.memStore a l).free = s.free ∧
    (s.memStore a l).queues = s.queues ∧ (s.memStore a l).items = s.items ∧ (s.memStore a l).lanes = s.lanes ∧
    (s.memStore a l).slotLane = s.slotLane ∧ (s.memStore a l).coded = s.coded ∧ (s.memStore a l).keys = s.keys ∧
    (s.memStore a l).lockEnd = s.lockEnd ∧ (s.memStore a l).rchans = s.rchans ∧ (s.memStore a l).calib = s.calib ∧
    (s.memStore a l).fmt = s.fmt ∧ (s.memStore a l).wrc = s.wrc ∧ (s.memStore a l).mot = s.mot ∧ (s.memStore a l).hst = s.hst ∧
    (s.memStore a l).rng = s.rng ∧ (s.memStore a l).ump = s.ump ∧ (s.memStore a l).team = s.team ∧
    (s.memStore a l).pwr = s.pwr ∧ (s.memStore a l).boot = s.boot ∧ (s.memStore a l).aon = s.aon ∧
    (s.memStore a l).aonMs = s.aonMs ∧ (s.memStore a l).out = s.out ∧ (s.memStore a l).freeCtr = s.freeCtr :=
    ⟨rfl, rfl, rfl, rfl, rfl, rfl, rfl, rfl, rfl, rfl, rfl, rfl, rfl, rfl, rfl, rfl, rfl, rfl, rfl, rfl, rfl, rfl, rfl, rfl,
    rfl, rfl, rfl, rfl, rfl, rfl, rfl, rfl, rfl, rfl, rfl, rfl, rfl⟩

/-- `setTileRec` touches `tiles` alone. -/
@[simp] theorem State.setTileRec_frame (n : Nat) (r : TileRec) :
    (s.setTileRec n r).pending = s.pending ∧ (s.setTileRec n r).regs = s.regs ∧ (s.setTileRec n r).cores = s.cores ∧
    (s.setTileRec n r).load = s.load ∧ (s.setTileRec n r).accepted = s.accepted ∧ (s.setTileRec n r).held = s.held ∧
    (s.setTileRec n r).nextSeq = s.nextSeq ∧ (s.setTileRec n r).txMark = s.txMark ∧ (s.setTileRec n r).txr = s.txr ∧
    (s.setTileRec n r).mem = s.mem ∧ (s.setTileRec n r).located = s.located ∧ (s.setTileRec n r).scrubAt = s.scrubAt ∧
    (s.setTileRec n r).scrubCount = s.scrubCount ∧ (s.setTileRec n r).lapStartMs = s.lapStartMs ∧
    (s.setTileRec n r).bufs = s.bufs ∧ (s.setTileRec n r).free = s.free ∧ (s.setTileRec n r).queues = s.queues ∧
    (s.setTileRec n r).items = s.items ∧ (s.setTileRec n r).lanes = s.lanes ∧ (s.setTileRec n r).slotLane = s.slotLane ∧
    (s.setTileRec n r).coded = s.coded ∧ (s.setTileRec n r).keys = s.keys ∧ (s.setTileRec n r).lockEnd = s.lockEnd ∧
    (s.setTileRec n r).rchans = s.rchans ∧ (s.setTileRec n r).calib = s.calib ∧ (s.setTileRec n r).fmt = s.fmt ∧
    (s.setTileRec n r).wrc = s.wrc ∧ (s.setTileRec n r).mot = s.mot ∧ (s.setTileRec n r).hst = s.hst ∧
    (s.setTileRec n r).rng = s.rng ∧ (s.setTileRec n r).ump = s.ump ∧ (s.setTileRec n r).team = s.team ∧
    (s.setTileRec n r).pwr = s.pwr ∧ (s.setTileRec n r).boot = s.boot ∧ (s.setTileRec n r).aon = s.aon ∧
    (s.setTileRec n r).aonMs = s.aonMs ∧ (s.setTileRec n r).out = s.out ∧ (s.setTileRec n r).freeCtr = s.freeCtr :=
    ⟨rfl, rfl, rfl, rfl, rfl, rfl, rfl, rfl, rfl, rfl, rfl, rfl, rfl, rfl, rfl, rfl, rfl, rfl, rfl, rfl, rfl, rfl, rfl, rfl,
    rfl, rfl, rfl, rfl, rfl, rfl, rfl, rfl, rfl, rfl, rfl, rfl, rfl, rfl⟩

/-- `setBuf` touches `bufs` alone. -/
@[simp] theorem State.setBuf_frame (c n : Nat) (b : Buf) :
    (s.setBuf c n b).pending = s.pending ∧ (s.setBuf c n b).regs = s.regs ∧ (s.setBuf c n b).cores = s.cores ∧
    (s.setBuf c n b).load = s.load ∧ (s.setBuf c n b).accepted = s.accepted ∧ (s.setBuf c n b).held = s.held ∧
    (s.setBuf c n b).nextSeq = s.nextSeq ∧ (s.setBuf c n b).txMark = s.txMark ∧ (s.setBuf c n b).txr = s.txr ∧
    (s.setBuf c n b).mem = s.mem ∧ (s.setBuf c n b).located = s.located ∧ (s.setBuf c n b).tiles = s.tiles ∧
    (s.setBuf c n b).scrubAt = s.scrubAt ∧ (s.setBuf c n b).scrubCount = s.scrubCount ∧
    (s.setBuf c n b).lapStartMs = s.lapStartMs ∧ (s.setBuf c n b).free = s.free ∧ (s.setBuf c n b).queues = s.queues ∧
    (s.setBuf c n b).items = s.items ∧ (s.setBuf c n b).lanes = s.lanes ∧ (s.setBuf c n b).slotLane = s.slotLane ∧
    (s.setBuf c n b).coded = s.coded ∧ (s.setBuf c n b).keys = s.keys ∧ (s.setBuf c n b).lockEnd = s.lockEnd ∧
    (s.setBuf c n b).rchans = s.rchans ∧ (s.setBuf c n b).calib = s.calib ∧ (s.setBuf c n b).fmt = s.fmt ∧
    (s.setBuf c n b).wrc = s.wrc ∧ (s.setBuf c n b).mot = s.mot ∧ (s.setBuf c n b).hst = s.hst ∧ (s.setBuf c n b).rng = s.rng ∧
    (s.setBuf c n b).ump = s.ump ∧ (s.setBuf c n b).team = s.team ∧ (s.setBuf c n b).pwr = s.pwr ∧
    (s.setBuf c n b).boot = s.boot ∧ (s.setBuf c n b).aon = s.aon ∧ (s.setBuf c n b).aonMs = s.aonMs ∧
    (s.setBuf c n b).out = s.out ∧ (s.setBuf c n b).freeCtr = s.freeCtr :=
    ⟨rfl, rfl, rfl, rfl, rfl, rfl, rfl, rfl, rfl, rfl, rfl, rfl, rfl, rfl, rfl, rfl, rfl, rfl, rfl, rfl, rfl, rfl, rfl, rfl,
    rfl, rfl, rfl, rfl, rfl, rfl, rfl, rfl, rfl, rfl, rfl, rfl, rfl, rfl⟩

/-- `setBufOf` touches `bufs` alone. -/
@[simp] theorem State.setBufOf_frame (h : W32) (b : Buf) :
    (s.setBufOf h b).pending = s.pending ∧ (s.setBufOf h b).regs = s.regs ∧ (s.setBufOf h b).cores = s.cores ∧
    (s.setBufOf h b).load = s.load ∧ (s.setBufOf h b).accepted = s.accepted ∧ (s.setBufOf h b).held = s.held ∧
    (s.setBufOf h b).nextSeq = s.nextSeq ∧ (s.setBufOf h b).txMark = s.txMark ∧ (s.setBufOf h b).txr = s.txr ∧
    (s.setBufOf h b).mem = s.mem ∧ (s.setBufOf h b).located = s.located ∧ (s.setBufOf h b).tiles = s.tiles ∧
    (s.setBufOf h b).scrubAt = s.scrubAt ∧ (s.setBufOf h b).scrubCount = s.scrubCount ∧
    (s.setBufOf h b).lapStartMs = s.lapStartMs ∧ (s.setBufOf h b).free = s.free ∧ (s.setBufOf h b).queues = s.queues ∧
    (s.setBufOf h b).items = s.items ∧ (s.setBufOf h b).lanes = s.lanes ∧ (s.setBufOf h b).slotLane = s.slotLane ∧
    (s.setBufOf h b).coded = s.coded ∧ (s.setBufOf h b).keys = s.keys ∧ (s.setBufOf h b).lockEnd = s.lockEnd ∧
    (s.setBufOf h b).rchans = s.rchans ∧ (s.setBufOf h b).calib = s.calib ∧ (s.setBufOf h b).fmt = s.fmt ∧
    (s.setBufOf h b).wrc = s.wrc ∧ (s.setBufOf h b).mot = s.mot ∧ (s.setBufOf h b).hst = s.hst ∧ (s.setBufOf h b).rng = s.rng ∧
    (s.setBufOf h b).ump = s.ump ∧ (s.setBufOf h b).team = s.team ∧ (s.setBufOf h b).pwr = s.pwr ∧
    (s.setBufOf h b).boot = s.boot ∧ (s.setBufOf h b).aon = s.aon ∧ (s.setBufOf h b).aonMs = s.aonMs ∧
    (s.setBufOf h b).out = s.out ∧ (s.setBufOf h b).freeCtr = s.freeCtr :=
    ⟨rfl, rfl, rfl, rfl, rfl, rfl, rfl, rfl, rfl, rfl, rfl, rfl, rfl, rfl, rfl, rfl, rfl, rfl, rfl, rfl, rfl, rfl, rfl, rfl,
    rfl, rfl, rfl, rfl, rfl, rfl, rfl, rfl, rfl, rfl, rfl, rfl, rfl, rfl⟩

/-- `setFree` touches `free` alone. -/
@[simp] theorem State.setFree_frame (c : Nat) (l : List Nat) :
    (s.setFree c l).pending = s.pending ∧ (s.setFree c l).regs = s.regs ∧ (s.setFree c l).cores = s.cores ∧
    (s.setFree c l).load = s.load ∧ (s.setFree c l).accepted = s.accepted ∧ (s.setFree c l).held = s.held ∧
    (s.setFree c l).nextSeq = s.nextSeq ∧ (s.setFree c l).txMark = s.txMark ∧ (s.setFree c l).txr = s.txr ∧
    (s.setFree c l).mem = s.mem ∧ (s.setFree c l).located = s.located ∧ (s.setFree c l).tiles = s.tiles ∧
    (s.setFree c l).scrubAt = s.scrubAt ∧ (s.setFree c l).scrubCount = s.scrubCount ∧
    (s.setFree c l).lapStartMs = s.lapStartMs ∧ (s.setFree c l).bufs = s.bufs ∧ (s.setFree c l).queues = s.queues ∧
    (s.setFree c l).items = s.items ∧ (s.setFree c l).lanes = s.lanes ∧ (s.setFree c l).slotLane = s.slotLane ∧
    (s.setFree c l).coded = s.coded ∧ (s.setFree c l).keys = s.keys ∧ (s.setFree c l).lockEnd = s.lockEnd ∧
    (s.setFree c l).rchans = s.rchans ∧ (s.setFree c l).calib = s.calib ∧ (s.setFree c l).fmt = s.fmt ∧
    (s.setFree c l).wrc = s.wrc ∧ (s.setFree c l).mot = s.mot ∧ (s.setFree c l).hst = s.hst ∧ (s.setFree c l).rng = s.rng ∧
    (s.setFree c l).ump = s.ump ∧ (s.setFree c l).team = s.team ∧ (s.setFree c l).pwr = s.pwr ∧ (s.setFree c l).boot = s.boot ∧
    (s.setFree c l).aon = s.aon ∧ (s.setFree c l).aonMs = s.aonMs ∧ (s.setFree c l).out = s.out ∧
    (s.setFree c l).freeCtr = s.freeCtr :=
    ⟨rfl, rfl, rfl, rfl, rfl, rfl, rfl, rfl, rfl, rfl, rfl, rfl, rfl, rfl, rfl, rfl, rfl, rfl, rfl, rfl, rfl, rfl, rfl, rfl,
    rfl, rfl, rfl, rfl, rfl, rfl, rfl, rfl, rfl, rfl, rfl, rfl, rfl, rfl⟩

/-- `setQueue` touches `queues` alone. -/
@[simp] theorem State.setQueue_frame (q : Nat) (x : Queue) :
    (s.setQueue q x).pending = s.pending ∧ (s.setQueue q x).regs = s.regs ∧ (s.setQueue q x).cores = s.cores ∧
    (s.setQueue q x).load = s.load ∧ (s.setQueue q x).accepted = s.accepted ∧ (s.setQueue q x).held = s.held ∧
    (s.setQueue q x).nextSeq = s.nextSeq ∧ (s.setQueue q x).txMark = s.txMark ∧ (s.setQueue q x).txr = s.txr ∧
    (s.setQueue q x).mem = s.mem ∧ (s.setQueue q x).located = s.located ∧ (s.setQueue q x).tiles = s.tiles ∧
    (s.setQueue q x).scrubAt = s.scrubAt ∧ (s.setQueue q x).scrubCount = s.scrubCount ∧
    (s.setQueue q x).lapStartMs = s.lapStartMs ∧ (s.setQueue q x).bufs = s.bufs ∧ (s.setQueue q x).free = s.free ∧
    (s.setQueue q x).items = s.items ∧ (s.setQueue q x).lanes = s.lanes ∧ (s.setQueue q x).slotLane = s.slotLane ∧
    (s.setQueue q x).coded = s.coded ∧ (s.setQueue q x).keys = s.keys ∧ (s.setQueue q x).lockEnd = s.lockEnd ∧
    (s.setQueue q x).rchans = s.rchans ∧ (s.setQueue q x).calib = s.calib ∧ (s.setQueue q x).fmt = s.fmt ∧
    (s.setQueue q x).wrc = s.wrc ∧ (s.setQueue q x).mot = s.mot ∧ (s.setQueue q x).hst = s.hst ∧ (s.setQueue q x).rng = s.rng ∧
    (s.setQueue q x).ump = s.ump ∧ (s.setQueue q x).team = s.team ∧ (s.setQueue q x).pwr = s.pwr ∧
    (s.setQueue q x).boot = s.boot ∧ (s.setQueue q x).aon = s.aon ∧ (s.setQueue q x).aonMs = s.aonMs ∧
    (s.setQueue q x).out = s.out ∧ (s.setQueue q x).freeCtr = s.freeCtr :=
    ⟨rfl, rfl, rfl, rfl, rfl, rfl, rfl, rfl, rfl, rfl, rfl, rfl, rfl, rfl, rfl, rfl, rfl, rfl, rfl, rfl, rfl, rfl, rfl, rfl,
    rfl, rfl, rfl, rfl, rfl, rfl, rfl, rfl, rfl, rfl, rfl, rfl, rfl, rfl⟩

/-- `setCmds` touches `accepted` alone. -/
@[simp] theorem State.setCmds_frame (n : Nat) (l : List Cmd) :
    (s.setCmds n l).pending = s.pending ∧ (s.setCmds n l).regs = s.regs ∧ (s.setCmds n l).cores = s.cores ∧
    (s.setCmds n l).load = s.load ∧ (s.setCmds n l).held = s.held ∧ (s.setCmds n l).nextSeq = s.nextSeq ∧
    (s.setCmds n l).txMark = s.txMark ∧ (s.setCmds n l).txr = s.txr ∧ (s.setCmds n l).mem = s.mem ∧
    (s.setCmds n l).located = s.located ∧ (s.setCmds n l).tiles = s.tiles ∧ (s.setCmds n l).scrubAt = s.scrubAt ∧
    (s.setCmds n l).scrubCount = s.scrubCount ∧ (s.setCmds n l).lapStartMs = s.lapStartMs ∧ (s.setCmds n l).bufs = s.bufs ∧
    (s.setCmds n l).free = s.free ∧ (s.setCmds n l).queues = s.queues ∧ (s.setCmds n l).items = s.items ∧
    (s.setCmds n l).lanes = s.lanes ∧ (s.setCmds n l).slotLane = s.slotLane ∧ (s.setCmds n l).coded = s.coded ∧
    (s.setCmds n l).keys = s.keys ∧ (s.setCmds n l).lockEnd = s.lockEnd ∧ (s.setCmds n l).rchans = s.rchans ∧
    (s.setCmds n l).calib = s.calib ∧ (s.setCmds n l).fmt = s.fmt ∧ (s.setCmds n l).wrc = s.wrc ∧ (s.setCmds n l).mot = s.mot ∧
    (s.setCmds n l).hst = s.hst ∧ (s.setCmds n l).rng = s.rng ∧ (s.setCmds n l).ump = s.ump ∧ (s.setCmds n l).team = s.team ∧
    (s.setCmds n l).pwr = s.pwr ∧ (s.setCmds n l).boot = s.boot ∧ (s.setCmds n l).aon = s.aon ∧
    (s.setCmds n l).aonMs = s.aonMs ∧ (s.setCmds n l).out = s.out ∧ (s.setCmds n l).freeCtr = s.freeCtr :=
    ⟨rfl, rfl, rfl, rfl, rfl, rfl, rfl, rfl, rfl, rfl, rfl, rfl, rfl, rfl, rfl, rfl, rfl, rfl, rfl, rfl, rfl, rfl, rfl, rfl,
    rfl, rfl, rfl, rfl, rfl, rfl, rfl, rfl, rfl, rfl, rfl, rfl, rfl, rfl⟩

/-- `start` touches `accepted` alone. -/
@[simp] theorem State.start_frame (c : Cmd) :
    (s.start c).pending = s.pending ∧ (s.start c).regs = s.regs ∧ (s.start c).cores = s.cores ∧ (s.start c).load = s.load ∧
    (s.start c).held = s.held ∧ (s.start c).nextSeq = s.nextSeq ∧ (s.start c).txMark = s.txMark ∧ (s.start c).txr = s.txr ∧
    (s.start c).mem = s.mem ∧ (s.start c).located = s.located ∧ (s.start c).tiles = s.tiles ∧ (s.start c).scrubAt = s.scrubAt ∧
    (s.start c).scrubCount = s.scrubCount ∧ (s.start c).lapStartMs = s.lapStartMs ∧ (s.start c).bufs = s.bufs ∧
    (s.start c).free = s.free ∧ (s.start c).queues = s.queues ∧ (s.start c).items = s.items ∧ (s.start c).lanes = s.lanes ∧
    (s.start c).slotLane = s.slotLane ∧ (s.start c).coded = s.coded ∧ (s.start c).keys = s.keys ∧
    (s.start c).lockEnd = s.lockEnd ∧ (s.start c).rchans = s.rchans ∧ (s.start c).calib = s.calib ∧ (s.start c).fmt = s.fmt ∧
    (s.start c).wrc = s.wrc ∧ (s.start c).mot = s.mot ∧ (s.start c).hst = s.hst ∧ (s.start c).rng = s.rng ∧
    (s.start c).ump = s.ump ∧ (s.start c).team = s.team ∧ (s.start c).pwr = s.pwr ∧ (s.start c).boot = s.boot ∧
    (s.start c).aon = s.aon ∧ (s.start c).aonMs = s.aonMs ∧ (s.start c).out = s.out ∧ (s.start c).freeCtr = s.freeCtr :=
    ⟨rfl, rfl, rfl, rfl, rfl, rfl, rfl, rfl, rfl, rfl, rfl, rfl, rfl, rfl, rfl, rfl, rfl, rfl, rfl, rfl, rfl, rfl, rfl, rfl,
    rfl, rfl, rfl, rfl, rfl, rfl, rfl, rfl, rfl, rfl, rfl, rfl, rfl, rfl⟩

/-- `finish` touches `held` alone. -/
@[simp] theorem State.finish_frame (c : Cmd) (st : W16) (detail result : Nat) (mark : Bool) :
    (s.finish c st detail result mark).pending = s.pending ∧ (s.finish c st detail result mark).regs = s.regs ∧
    (s.finish c st detail result mark).cores = s.cores ∧ (s.finish c st detail result mark).load = s.load ∧
    (s.finish c st detail result mark).accepted = s.accepted ∧ (s.finish c st detail result mark).nextSeq = s.nextSeq ∧
    (s.finish c st detail result mark).txMark = s.txMark ∧ (s.finish c st detail result mark).txr = s.txr ∧
    (s.finish c st detail result mark).mem = s.mem ∧ (s.finish c st detail result mark).located = s.located ∧
    (s.finish c st detail result mark).tiles = s.tiles ∧ (s.finish c st detail result mark).scrubAt = s.scrubAt ∧
    (s.finish c st detail result mark).scrubCount = s.scrubCount ∧
    (s.finish c st detail result mark).lapStartMs = s.lapStartMs ∧ (s.finish c st detail result mark).bufs = s.bufs ∧
    (s.finish c st detail result mark).free = s.free ∧ (s.finish c st detail result mark).queues = s.queues ∧
    (s.finish c st detail result mark).items = s.items ∧ (s.finish c st detail result mark).lanes = s.lanes ∧
    (s.finish c st detail result mark).slotLane = s.slotLane ∧ (s.finish c st detail result mark).coded = s.coded ∧
    (s.finish c st detail result mark).keys = s.keys ∧ (s.finish c st detail result mark).lockEnd = s.lockEnd ∧
    (s.finish c st detail result mark).rchans = s.rchans ∧ (s.finish c st detail result mark).calib = s.calib ∧
    (s.finish c st detail result mark).fmt = s.fmt ∧ (s.finish c st detail result mark).wrc = s.wrc ∧
    (s.finish c st detail result mark).mot = s.mot ∧ (s.finish c st detail result mark).hst = s.hst ∧
    (s.finish c st detail result mark).rng = s.rng ∧ (s.finish c st detail result mark).ump = s.ump ∧
    (s.finish c st detail result mark).team = s.team ∧ (s.finish c st detail result mark).pwr = s.pwr ∧
    (s.finish c st detail result mark).boot = s.boot ∧ (s.finish c st detail result mark).aon = s.aon ∧
    (s.finish c st detail result mark).aonMs = s.aonMs ∧ (s.finish c st detail result mark).out = s.out ∧
    (s.finish c st detail result mark).freeCtr = s.freeCtr :=
    ⟨rfl, rfl, rfl, rfl, rfl, rfl, rfl, rfl, rfl, rfl, rfl, rfl, rfl, rfl, rfl, rfl, rfl, rfl, rfl, rfl, rfl, rfl, rfl, rfl,
    rfl, rfl, rfl, rfl, rfl, rfl, rfl, rfl, rfl, rfl, rfl, rfl, rfl, rfl⟩

/-- `setLane` touches `lanes` alone. -/
@[simp] theorem State.setLane_frame (l : Nat) (x : Lane) :
    (s.setLane l x).pending = s.pending ∧ (s.setLane l x).regs = s.regs ∧ (s.setLane l x).cores = s.cores ∧
    (s.setLane l x).load = s.load ∧ (s.setLane l x).accepted = s.accepted ∧ (s.setLane l x).held = s.held ∧
    (s.setLane l x).nextSeq = s.nextSeq ∧ (s.setLane l x).txMark = s.txMark ∧ (s.setLane l x).txr = s.txr ∧
    (s.setLane l x).mem = s.mem ∧ (s.setLane l x).located = s.located ∧ (s.setLane l x).tiles = s.tiles ∧
    (s.setLane l x).scrubAt = s.scrubAt ∧ (s.setLane l x).scrubCount = s.scrubCount ∧
    (s.setLane l x).lapStartMs = s.lapStartMs ∧ (s.setLane l x).bufs = s.bufs ∧ (s.setLane l x).free = s.free ∧
    (s.setLane l x).queues = s.queues ∧ (s.setLane l x).items = s.items ∧ (s.setLane l x).slotLane = s.slotLane ∧
    (s.setLane l x).coded = s.coded ∧ (s.setLane l x).keys = s.keys ∧ (s.setLane l x).lockEnd = s.lockEnd ∧
    (s.setLane l x).rchans = s.rchans ∧ (s.setLane l x).calib = s.calib ∧ (s.setLane l x).fmt = s.fmt ∧
    (s.setLane l x).wrc = s.wrc ∧ (s.setLane l x).mot = s.mot ∧ (s.setLane l x).hst = s.hst ∧ (s.setLane l x).rng = s.rng ∧
    (s.setLane l x).ump = s.ump ∧ (s.setLane l x).team = s.team ∧ (s.setLane l x).pwr = s.pwr ∧ (s.setLane l x).boot = s.boot ∧
    (s.setLane l x).aon = s.aon ∧ (s.setLane l x).aonMs = s.aonMs ∧ (s.setLane l x).out = s.out ∧
    (s.setLane l x).freeCtr = s.freeCtr :=
    ⟨rfl, rfl, rfl, rfl, rfl, rfl, rfl, rfl, rfl, rfl, rfl, rfl, rfl, rfl, rfl, rfl, rfl, rfl, rfl, rfl, rfl, rfl, rfl, rfl,
    rfl, rfl, rfl, rfl, rfl, rfl, rfl, rfl, rfl, rfl, rfl, rfl, rfl, rfl⟩

/-- `setKey` touches `keys` alone. -/
@[simp] theorem State.setKey_frame (n : Nat) (k : KeySlot) :
    (s.setKey n k).pending = s.pending ∧ (s.setKey n k).regs = s.regs ∧ (s.setKey n k).cores = s.cores ∧
    (s.setKey n k).load = s.load ∧ (s.setKey n k).accepted = s.accepted ∧ (s.setKey n k).held = s.held ∧
    (s.setKey n k).nextSeq = s.nextSeq ∧ (s.setKey n k).txMark = s.txMark ∧ (s.setKey n k).txr = s.txr ∧
    (s.setKey n k).mem = s.mem ∧ (s.setKey n k).located = s.located ∧ (s.setKey n k).tiles = s.tiles ∧
    (s.setKey n k).scrubAt = s.scrubAt ∧ (s.setKey n k).scrubCount = s.scrubCount ∧ (s.setKey n k).lapStartMs = s.lapStartMs ∧
    (s.setKey n k).bufs = s.bufs ∧ (s.setKey n k).free = s.free ∧ (s.setKey n k).queues = s.queues ∧
    (s.setKey n k).items = s.items ∧ (s.setKey n k).lanes = s.lanes ∧ (s.setKey n k).slotLane = s.slotLane ∧
    (s.setKey n k).coded = s.coded ∧ (s.setKey n k).lockEnd = s.lockEnd ∧ (s.setKey n k).rchans = s.rchans ∧
    (s.setKey n k).calib = s.calib ∧ (s.setKey n k).fmt = s.fmt ∧ (s.setKey n k).wrc = s.wrc ∧ (s.setKey n k).mot = s.mot ∧
    (s.setKey n k).hst = s.hst ∧ (s.setKey n k).rng = s.rng ∧ (s.setKey n k).ump = s.ump ∧ (s.setKey n k).team = s.team ∧
    (s.setKey n k).pwr = s.pwr ∧ (s.setKey n k).boot = s.boot ∧ (s.setKey n k).aon = s.aon ∧ (s.setKey n k).aonMs = s.aonMs ∧
    (s.setKey n k).out = s.out ∧ (s.setKey n k).freeCtr = s.freeCtr :=
    ⟨rfl, rfl, rfl, rfl, rfl, rfl, rfl, rfl, rfl, rfl, rfl, rfl, rfl, rfl, rfl, rfl, rfl, rfl, rfl, rfl, rfl, rfl, rfl, rfl,
    rfl, rfl, rfl, rfl, rfl, rfl, rfl, rfl, rfl, rfl, rfl, rfl, rfl, rfl⟩

/-- `setRchan` touches `rchans` alone. -/
@[simp] theorem State.setRchan_frame (c : Nat) (r : RChan) :
    (s.setRchan c r).pending = s.pending ∧ (s.setRchan c r).regs = s.regs ∧ (s.setRchan c r).cores = s.cores ∧
    (s.setRchan c r).load = s.load ∧ (s.setRchan c r).accepted = s.accepted ∧ (s.setRchan c r).held = s.held ∧
    (s.setRchan c r).nextSeq = s.nextSeq ∧ (s.setRchan c r).txMark = s.txMark ∧ (s.setRchan c r).txr = s.txr ∧
    (s.setRchan c r).mem = s.mem ∧ (s.setRchan c r).located = s.located ∧ (s.setRchan c r).tiles = s.tiles ∧
    (s.setRchan c r).scrubAt = s.scrubAt ∧ (s.setRchan c r).scrubCount = s.scrubCount ∧
    (s.setRchan c r).lapStartMs = s.lapStartMs ∧ (s.setRchan c r).bufs = s.bufs ∧ (s.setRchan c r).free = s.free ∧
    (s.setRchan c r).queues = s.queues ∧ (s.setRchan c r).items = s.items ∧ (s.setRchan c r).lanes = s.lanes ∧
    (s.setRchan c r).slotLane = s.slotLane ∧ (s.setRchan c r).coded = s.coded ∧ (s.setRchan c r).keys = s.keys ∧
    (s.setRchan c r).lockEnd = s.lockEnd ∧ (s.setRchan c r).calib = s.calib ∧ (s.setRchan c r).fmt = s.fmt ∧
    (s.setRchan c r).wrc = s.wrc ∧ (s.setRchan c r).mot = s.mot ∧ (s.setRchan c r).hst = s.hst ∧ (s.setRchan c r).rng = s.rng ∧
    (s.setRchan c r).ump = s.ump ∧ (s.setRchan c r).team = s.team ∧ (s.setRchan c r).pwr = s.pwr ∧
    (s.setRchan c r).boot = s.boot ∧ (s.setRchan c r).aon = s.aon ∧ (s.setRchan c r).aonMs = s.aonMs ∧
    (s.setRchan c r).out = s.out ∧ (s.setRchan c r).freeCtr = s.freeCtr :=
    ⟨rfl, rfl, rfl, rfl, rfl, rfl, rfl, rfl, rfl, rfl, rfl, rfl, rfl, rfl, rfl, rfl, rfl, rfl, rfl, rfl, rfl, rfl, rfl, rfl,
    rfl, rfl, rfl, rfl, rfl, rfl, rfl, rfl, rfl, rfl, rfl, rfl, rfl, rfl⟩

/-- `setWchan` touches `wrc` alone. -/
@[simp] theorem State.setWchan_frame (c : Nat) (w : WChan) :
    (s.setWchan c w).pending = s.pending ∧ (s.setWchan c w).regs = s.regs ∧ (s.setWchan c w).cores = s.cores ∧
    (s.setWchan c w).load = s.load ∧ (s.setWchan c w).accepted = s.accepted ∧ (s.setWchan c w).held = s.held ∧
    (s.setWchan c w).nextSeq = s.nextSeq ∧ (s.setWchan c w).txMark = s.txMark ∧ (s.setWchan c w).txr = s.txr ∧
    (s.setWchan c w).mem = s.mem ∧ (s.setWchan c w).located = s.located ∧ (s.setWchan c w).tiles = s.tiles ∧
    (s.setWchan c w).scrubAt = s.scrubAt ∧ (s.setWchan c w).scrubCount = s.scrubCount ∧
    (s.setWchan c w).lapStartMs = s.lapStartMs ∧ (s.setWchan c w).bufs = s.bufs ∧ (s.setWchan c w).free = s.free ∧
    (s.setWchan c w).queues = s.queues ∧ (s.setWchan c w).items = s.items ∧ (s.setWchan c w).lanes = s.lanes ∧
    (s.setWchan c w).slotLane = s.slotLane ∧ (s.setWchan c w).coded = s.coded ∧ (s.setWchan c w).keys = s.keys ∧
    (s.setWchan c w).lockEnd = s.lockEnd ∧ (s.setWchan c w).rchans = s.rchans ∧ (s.setWchan c w).calib = s.calib ∧
    (s.setWchan c w).fmt = s.fmt ∧ (s.setWchan c w).mot = s.mot ∧ (s.setWchan c w).hst = s.hst ∧ (s.setWchan c w).rng = s.rng ∧
    (s.setWchan c w).ump = s.ump ∧ (s.setWchan c w).team = s.team ∧ (s.setWchan c w).pwr = s.pwr ∧
    (s.setWchan c w).boot = s.boot ∧ (s.setWchan c w).aon = s.aon ∧ (s.setWchan c w).aonMs = s.aonMs ∧
    (s.setWchan c w).out = s.out ∧ (s.setWchan c w).freeCtr = s.freeCtr :=
    ⟨rfl, rfl, rfl, rfl, rfl, rfl, rfl, rfl, rfl, rfl, rfl, rfl, rfl, rfl, rfl, rfl, rfl, rfl, rfl, rfl, rfl, rfl, rfl, rfl,
    rfl, rfl, rfl, rfl, rfl, rfl, rfl, rfl, rfl, rfl, rfl, rfl, rfl, rfl⟩

/-- `setSrvChan` touches `mot` alone. -/
@[simp] theorem State.setSrvChan_frame (c : Nat) (x : SrvChan) :
    (s.setSrvChan c x).pending = s.pending ∧ (s.setSrvChan c x).regs = s.regs ∧ (s.setSrvChan c x).cores = s.cores ∧
    (s.setSrvChan c x).load = s.load ∧ (s.setSrvChan c x).accepted = s.accepted ∧ (s.setSrvChan c x).held = s.held ∧
    (s.setSrvChan c x).nextSeq = s.nextSeq ∧ (s.setSrvChan c x).txMark = s.txMark ∧ (s.setSrvChan c x).txr = s.txr ∧
    (s.setSrvChan c x).mem = s.mem ∧ (s.setSrvChan c x).located = s.located ∧ (s.setSrvChan c x).tiles = s.tiles ∧
    (s.setSrvChan c x).scrubAt = s.scrubAt ∧ (s.setSrvChan c x).scrubCount = s.scrubCount ∧
    (s.setSrvChan c x).lapStartMs = s.lapStartMs ∧ (s.setSrvChan c x).bufs = s.bufs ∧ (s.setSrvChan c x).free = s.free ∧
    (s.setSrvChan c x).queues = s.queues ∧ (s.setSrvChan c x).items = s.items ∧ (s.setSrvChan c x).lanes = s.lanes ∧
    (s.setSrvChan c x).slotLane = s.slotLane ∧ (s.setSrvChan c x).coded = s.coded ∧ (s.setSrvChan c x).keys = s.keys ∧
    (s.setSrvChan c x).lockEnd = s.lockEnd ∧ (s.setSrvChan c x).rchans = s.rchans ∧ (s.setSrvChan c x).calib = s.calib ∧
    (s.setSrvChan c x).fmt = s.fmt ∧ (s.setSrvChan c x).wrc = s.wrc ∧ (s.setSrvChan c x).hst = s.hst ∧
    (s.setSrvChan c x).rng = s.rng ∧ (s.setSrvChan c x).ump = s.ump ∧ (s.setSrvChan c x).team = s.team ∧
    (s.setSrvChan c x).pwr = s.pwr ∧ (s.setSrvChan c x).boot = s.boot ∧ (s.setSrvChan c x).aon = s.aon ∧
    (s.setSrvChan c x).aonMs = s.aonMs ∧ (s.setSrvChan c x).out = s.out ∧ (s.setSrvChan c x).freeCtr = s.freeCtr :=
    ⟨rfl, rfl, rfl, rfl, rfl, rfl, rfl, rfl, rfl, rfl, rfl, rfl, rfl, rfl, rfl, rfl, rfl, rfl, rfl, rfl, rfl, rfl, rfl, rfl,
    rfl, rfl, rfl, rfl, rfl, rfl, rfl, rfl, rfl, rfl, rfl, rfl, rfl, rfl⟩

/-- `setLive` touches `mot` alone. -/
@[simp] theorem State.setLive_frame (p : Nat) (x : Rat) :
    (s.setLive p x).pending = s.pending ∧ (s.setLive p x).regs = s.regs ∧ (s.setLive p x).cores = s.cores ∧
    (s.setLive p x).load = s.load ∧ (s.setLive p x).accepted = s.accepted ∧ (s.setLive p x).held = s.held ∧
    (s.setLive p x).nextSeq = s.nextSeq ∧ (s.setLive p x).txMark = s.txMark ∧ (s.setLive p x).txr = s.txr ∧
    (s.setLive p x).mem = s.mem ∧ (s.setLive p x).located = s.located ∧ (s.setLive p x).tiles = s.tiles ∧
    (s.setLive p x).scrubAt = s.scrubAt ∧ (s.setLive p x).scrubCount = s.scrubCount ∧
    (s.setLive p x).lapStartMs = s.lapStartMs ∧ (s.setLive p x).bufs = s.bufs ∧ (s.setLive p x).free = s.free ∧
    (s.setLive p x).queues = s.queues ∧ (s.setLive p x).items = s.items ∧ (s.setLive p x).lanes = s.lanes ∧
    (s.setLive p x).slotLane = s.slotLane ∧ (s.setLive p x).coded = s.coded ∧ (s.setLive p x).keys = s.keys ∧
    (s.setLive p x).lockEnd = s.lockEnd ∧ (s.setLive p x).rchans = s.rchans ∧ (s.setLive p x).calib = s.calib ∧
    (s.setLive p x).fmt = s.fmt ∧ (s.setLive p x).wrc = s.wrc ∧ (s.setLive p x).hst = s.hst ∧ (s.setLive p x).rng = s.rng ∧
    (s.setLive p x).ump = s.ump ∧ (s.setLive p x).team = s.team ∧ (s.setLive p x).pwr = s.pwr ∧ (s.setLive p x).boot = s.boot ∧
    (s.setLive p x).aon = s.aon ∧ (s.setLive p x).aonMs = s.aonMs ∧ (s.setLive p x).out = s.out ∧
    (s.setLive p x).freeCtr = s.freeCtr :=
    ⟨rfl, rfl, rfl, rfl, rfl, rfl, rfl, rfl, rfl, rfl, rfl, rfl, rfl, rfl, rfl, rfl, rfl, rfl, rfl, rfl, rfl, rfl, rfl, rfl,
    rfl, rfl, rfl, rfl, rfl, rfl, rfl, rfl, rfl, rfl, rfl, rfl, rfl, rfl⟩

/-- `setPair` touches `hst` alone. -/
@[simp] theorem State.setPair_frame (f p : Nat) (x : QPair) :
    (s.setPair f p x).pending = s.pending ∧ (s.setPair f p x).regs = s.regs ∧ (s.setPair f p x).cores = s.cores ∧
    (s.setPair f p x).load = s.load ∧ (s.setPair f p x).accepted = s.accepted ∧ (s.setPair f p x).held = s.held ∧
    (s.setPair f p x).nextSeq = s.nextSeq ∧ (s.setPair f p x).txMark = s.txMark ∧ (s.setPair f p x).txr = s.txr ∧
    (s.setPair f p x).mem = s.mem ∧ (s.setPair f p x).located = s.located ∧ (s.setPair f p x).tiles = s.tiles ∧
    (s.setPair f p x).scrubAt = s.scrubAt ∧ (s.setPair f p x).scrubCount = s.scrubCount ∧
    (s.setPair f p x).lapStartMs = s.lapStartMs ∧ (s.setPair f p x).bufs = s.bufs ∧ (s.setPair f p x).free = s.free ∧
    (s.setPair f p x).queues = s.queues ∧ (s.setPair f p x).items = s.items ∧ (s.setPair f p x).lanes = s.lanes ∧
    (s.setPair f p x).slotLane = s.slotLane ∧ (s.setPair f p x).coded = s.coded ∧ (s.setPair f p x).keys = s.keys ∧
    (s.setPair f p x).lockEnd = s.lockEnd ∧ (s.setPair f p x).rchans = s.rchans ∧ (s.setPair f p x).calib = s.calib ∧
    (s.setPair f p x).fmt = s.fmt ∧ (s.setPair f p x).wrc = s.wrc ∧ (s.setPair f p x).mot = s.mot ∧
    (s.setPair f p x).rng = s.rng ∧ (s.setPair f p x).ump = s.ump ∧ (s.setPair f p x).team = s.team ∧
    (s.setPair f p x).pwr = s.pwr ∧ (s.setPair f p x).boot = s.boot ∧ (s.setPair f p x).aon = s.aon ∧
    (s.setPair f p x).aonMs = s.aonMs ∧ (s.setPair f p x).out = s.out ∧ (s.setPair f p x).freeCtr = s.freeCtr :=
    ⟨rfl, rfl, rfl, rfl, rfl, rfl, rfl, rfl, rfl, rfl, rfl, rfl, rfl, rfl, rfl, rfl, rfl, rfl, rfl, rfl, rfl, rfl, rfl, rfl,
    rfl, rfl, rfl, rfl, rfl, rfl, rfl, rfl, rfl, rfl, rfl, rfl, rfl, rfl⟩

/-- `updJob` touches `fmt` alone. -/
@[simp] theorem State.updJob_frame (n : Nat) (f : YealmJob → YealmJob) :
    (s.updJob n f).pending = s.pending ∧ (s.updJob n f).regs = s.regs ∧ (s.updJob n f).cores = s.cores ∧
    (s.updJob n f).load = s.load ∧ (s.updJob n f).accepted = s.accepted ∧ (s.updJob n f).held = s.held ∧
    (s.updJob n f).nextSeq = s.nextSeq ∧ (s.updJob n f).txMark = s.txMark ∧ (s.updJob n f).txr = s.txr ∧
    (s.updJob n f).mem = s.mem ∧ (s.updJob n f).located = s.located ∧ (s.updJob n f).tiles = s.tiles ∧
    (s.updJob n f).scrubAt = s.scrubAt ∧ (s.updJob n f).scrubCount = s.scrubCount ∧ (s.updJob n f).lapStartMs = s.lapStartMs ∧
    (s.updJob n f).bufs = s.bufs ∧ (s.updJob n f).free = s.free ∧ (s.updJob n f).queues = s.queues ∧
    (s.updJob n f).items = s.items ∧ (s.updJob n f).lanes = s.lanes ∧ (s.updJob n f).slotLane = s.slotLane ∧
    (s.updJob n f).coded = s.coded ∧ (s.updJob n f).keys = s.keys ∧ (s.updJob n f).lockEnd = s.lockEnd ∧
    (s.updJob n f).rchans = s.rchans ∧ (s.updJob n f).calib = s.calib ∧ (s.updJob n f).wrc = s.wrc ∧
    (s.updJob n f).mot = s.mot ∧ (s.updJob n f).hst = s.hst ∧ (s.updJob n f).rng = s.rng ∧ (s.updJob n f).ump = s.ump ∧
    (s.updJob n f).team = s.team ∧ (s.updJob n f).pwr = s.pwr ∧ (s.updJob n f).boot = s.boot ∧ (s.updJob n f).aon = s.aon ∧
    (s.updJob n f).aonMs = s.aonMs ∧ (s.updJob n f).out = s.out ∧ (s.updJob n f).freeCtr = s.freeCtr :=
    ⟨rfl, rfl, rfl, rfl, rfl, rfl, rfl, rfl, rfl, rfl, rfl, rfl, rfl, rfl, rfl, rfl, rfl, rfl, rfl, rfl, rfl, rfl, rfl, rfl,
    rfl, rfl, rfl, rfl, rfl, rfl, rfl, rfl, rfl, rfl, rfl, rfl, rfl, rfl⟩

/-- `updSeal` touches `fmt` alone. -/
@[simp] theorem State.updSeal_frame (n : Nat) (f : SealJob → SealJob) :
    (s.updSeal n f).pending = s.pending ∧ (s.updSeal n f).regs = s.regs ∧ (s.updSeal n f).cores = s.cores ∧
    (s.updSeal n f).load = s.load ∧ (s.updSeal n f).accepted = s.accepted ∧ (s.updSeal n f).held = s.held ∧
    (s.updSeal n f).nextSeq = s.nextSeq ∧ (s.updSeal n f).txMark = s.txMark ∧ (s.updSeal n f).txr = s.txr ∧
    (s.updSeal n f).mem = s.mem ∧ (s.updSeal n f).located = s.located ∧ (s.updSeal n f).tiles = s.tiles ∧
    (s.updSeal n f).scrubAt = s.scrubAt ∧ (s.updSeal n f).scrubCount = s.scrubCount ∧
    (s.updSeal n f).lapStartMs = s.lapStartMs ∧ (s.updSeal n f).bufs = s.bufs ∧ (s.updSeal n f).free = s.free ∧
    (s.updSeal n f).queues = s.queues ∧ (s.updSeal n f).items = s.items ∧ (s.updSeal n f).lanes = s.lanes ∧
    (s.updSeal n f).slotLane = s.slotLane ∧ (s.updSeal n f).coded = s.coded ∧ (s.updSeal n f).keys = s.keys ∧
    (s.updSeal n f).lockEnd = s.lockEnd ∧ (s.updSeal n f).rchans = s.rchans ∧ (s.updSeal n f).calib = s.calib ∧
    (s.updSeal n f).wrc = s.wrc ∧ (s.updSeal n f).mot = s.mot ∧ (s.updSeal n f).hst = s.hst ∧ (s.updSeal n f).rng = s.rng ∧
    (s.updSeal n f).ump = s.ump ∧ (s.updSeal n f).team = s.team ∧ (s.updSeal n f).pwr = s.pwr ∧ (s.updSeal n f).boot = s.boot ∧
    (s.updSeal n f).aon = s.aon ∧ (s.updSeal n f).aonMs = s.aonMs ∧ (s.updSeal n f).out = s.out ∧
    (s.updSeal n f).freeCtr = s.freeCtr :=
    ⟨rfl, rfl, rfl, rfl, rfl, rfl, rfl, rfl, rfl, rfl, rfl, rfl, rfl, rfl, rfl, rfl, rfl, rfl, rfl, rfl, rfl, rfl, rfl, rfl,
    rfl, rfl, rfl, rfl, rfl, rfl, rfl, rfl, rfl, rfl, rfl, rfl, rfl, rfl⟩

/-- `aonStore` touches `aon` alone. -/
@[simp] theorem State.aonStore_frame (a : Nat) (l : List Byte) :
    (s.aonStore a l).pending = s.pending ∧ (s.aonStore a l).regs = s.regs ∧ (s.aonStore a l).cores = s.cores ∧
    (s.aonStore a l).load = s.load ∧ (s.aonStore a l).accepted = s.accepted ∧ (s.aonStore a l).held = s.held ∧
    (s.aonStore a l).nextSeq = s.nextSeq ∧ (s.aonStore a l).txMark = s.txMark ∧ (s.aonStore a l).txr = s.txr ∧
    (s.aonStore a l).mem = s.mem ∧ (s.aonStore a l).located = s.located ∧ (s.aonStore a l).tiles = s.tiles ∧
    (s.aonStore a l).scrubAt = s.scrubAt ∧ (s.aonStore a l).scrubCount = s.scrubCount ∧
    (s.aonStore a l).lapStartMs = s.lapStartMs ∧ (s.aonStore a l).bufs = s.bufs ∧ (s.aonStore a l).free = s.free ∧
    (s.aonStore a l).queues = s.queues ∧ (s.aonStore a l).items = s.items ∧ (s.aonStore a l).lanes = s.lanes ∧
    (s.aonStore a l).slotLane = s.slotLane ∧ (s.aonStore a l).coded = s.coded ∧ (s.aonStore a l).keys = s.keys ∧
    (s.aonStore a l).lockEnd = s.lockEnd ∧ (s.aonStore a l).rchans = s.rchans ∧ (s.aonStore a l).calib = s.calib ∧
    (s.aonStore a l).fmt = s.fmt ∧ (s.aonStore a l).wrc = s.wrc ∧ (s.aonStore a l).mot = s.mot ∧ (s.aonStore a l).hst = s.hst ∧
    (s.aonStore a l).rng = s.rng ∧ (s.aonStore a l).ump = s.ump ∧ (s.aonStore a l).team = s.team ∧
    (s.aonStore a l).pwr = s.pwr ∧ (s.aonStore a l).boot = s.boot ∧ (s.aonStore a l).aonMs = s.aonMs ∧
    (s.aonStore a l).out = s.out ∧ (s.aonStore a l).freeCtr = s.freeCtr :=
    ⟨rfl, rfl, rfl, rfl, rfl, rfl, rfl, rfl, rfl, rfl, rfl, rfl, rfl, rfl, rfl, rfl, rfl, rfl, rfl, rfl, rfl, rfl, rfl, rfl,
    rfl, rfl, rfl, rfl, rfl, rfl, rfl, rfl, rfl, rfl, rfl, rfl, rfl, rfl⟩

/-- `flashStore` touches `boot` alone. -/
@[simp] theorem State.flashStore_frame (a : Nat) (l : List Byte) :
    (s.flashStore a l).pending = s.pending ∧ (s.flashStore a l).regs = s.regs ∧ (s.flashStore a l).cores = s.cores ∧
    (s.flashStore a l).load = s.load ∧ (s.flashStore a l).accepted = s.accepted ∧ (s.flashStore a l).held = s.held ∧
    (s.flashStore a l).nextSeq = s.nextSeq ∧ (s.flashStore a l).txMark = s.txMark ∧ (s.flashStore a l).txr = s.txr ∧
    (s.flashStore a l).mem = s.mem ∧ (s.flashStore a l).located = s.located ∧ (s.flashStore a l).tiles = s.tiles ∧
    (s.flashStore a l).scrubAt = s.scrubAt ∧ (s.flashStore a l).scrubCount = s.scrubCount ∧
    (s.flashStore a l).lapStartMs = s.lapStartMs ∧ (s.flashStore a l).bufs = s.bufs ∧ (s.flashStore a l).free = s.free ∧
    (s.flashStore a l).queues = s.queues ∧ (s.flashStore a l).items = s.items ∧ (s.flashStore a l).lanes = s.lanes ∧
    (s.flashStore a l).slotLane = s.slotLane ∧ (s.flashStore a l).coded = s.coded ∧ (s.flashStore a l).keys = s.keys ∧
    (s.flashStore a l).lockEnd = s.lockEnd ∧ (s.flashStore a l).rchans = s.rchans ∧ (s.flashStore a l).calib = s.calib ∧
    (s.flashStore a l).fmt = s.fmt ∧ (s.flashStore a l).wrc = s.wrc ∧ (s.flashStore a l).mot = s.mot ∧
    (s.flashStore a l).hst = s.hst ∧ (s.flashStore a l).rng = s.rng ∧ (s.flashStore a l).ump = s.ump ∧
    (s.flashStore a l).team = s.team ∧ (s.flashStore a l).pwr = s.pwr ∧ (s.flashStore a l).aon = s.aon ∧
    (s.flashStore a l).aonMs = s.aonMs ∧ (s.flashStore a l).out = s.out ∧ (s.flashStore a l).freeCtr = s.freeCtr :=
    ⟨rfl, rfl, rfl, rfl, rfl, rfl, rfl, rfl, rfl, rfl, rfl, rfl, rfl, rfl, rfl, rfl, rfl, rfl, rfl, rfl, rfl, rfl, rfl, rfl,
    rfl, rfl, rfl, rfl, rfl, rfl, rfl, rfl, rfl, rfl, rfl, rfl, rfl, rfl⟩

/-- `setRport` touches `rng` alone. -/
@[simp] theorem State.setRport_frame (p : Port) (r : RPort) :
    (s.setRport p r).pending = s.pending ∧ (s.setRport p r).regs = s.regs ∧ (s.setRport p r).cores = s.cores ∧
    (s.setRport p r).load = s.load ∧ (s.setRport p r).accepted = s.accepted ∧ (s.setRport p r).held = s.held ∧
    (s.setRport p r).nextSeq = s.nextSeq ∧ (s.setRport p r).txMark = s.txMark ∧ (s.setRport p r).txr = s.txr ∧
    (s.setRport p r).mem = s.mem ∧ (s.setRport p r).located = s.located ∧ (s.setRport p r).tiles = s.tiles ∧
    (s.setRport p r).scrubAt = s.scrubAt ∧ (s.setRport p r).scrubCount = s.scrubCount ∧
    (s.setRport p r).lapStartMs = s.lapStartMs ∧ (s.setRport p r).bufs = s.bufs ∧ (s.setRport p r).free = s.free ∧
    (s.setRport p r).queues = s.queues ∧ (s.setRport p r).items = s.items ∧ (s.setRport p r).lanes = s.lanes ∧
    (s.setRport p r).slotLane = s.slotLane ∧ (s.setRport p r).coded = s.coded ∧ (s.setRport p r).keys = s.keys ∧
    (s.setRport p r).lockEnd = s.lockEnd ∧ (s.setRport p r).rchans = s.rchans ∧ (s.setRport p r).calib = s.calib ∧
    (s.setRport p r).fmt = s.fmt ∧ (s.setRport p r).wrc = s.wrc ∧ (s.setRport p r).mot = s.mot ∧ (s.setRport p r).hst = s.hst ∧
    (s.setRport p r).ump = s.ump ∧ (s.setRport p r).team = s.team ∧ (s.setRport p r).pwr = s.pwr ∧
    (s.setRport p r).boot = s.boot ∧ (s.setRport p r).aon = s.aon ∧ (s.setRport p r).aonMs = s.aonMs ∧
    (s.setRport p r).out = s.out ∧ (s.setRport p r).freeCtr = s.freeCtr :=
    by cases p <;> exact ⟨rfl, rfl, rfl, rfl, rfl, rfl, rfl, rfl, rfl, rfl, rfl, rfl, rfl, rfl, rfl, rfl, rfl, rfl, rfl, rfl, rfl, rfl, rfl, rfl,
    rfl, rfl, rfl, rfl, rfl, rfl, rfl, rfl, rfl, rfl, rfl, rfl, rfl, rfl⟩

/-- `setTrans` touches `pwr` alone. -/
@[simp] theorem State.setTrans_frame (x : Transition) :
    (s.setTrans x).pending = s.pending ∧ (s.setTrans x).regs = s.regs ∧ (s.setTrans x).cores = s.cores ∧
    (s.setTrans x).load = s.load ∧ (s.setTrans x).accepted = s.accepted ∧ (s.setTrans x).held = s.held ∧
    (s.setTrans x).nextSeq = s.nextSeq ∧ (s.setTrans x).txMark = s.txMark ∧ (s.setTrans x).txr = s.txr ∧
    (s.setTrans x).mem = s.mem ∧ (s.setTrans x).located = s.located ∧ (s.setTrans x).tiles = s.tiles ∧
    (s.setTrans x).scrubAt = s.scrubAt ∧ (s.setTrans x).scrubCount = s.scrubCount ∧ (s.setTrans x).lapStartMs = s.lapStartMs ∧
    (s.setTrans x).bufs = s.bufs ∧ (s.setTrans x).free = s.free ∧ (s.setTrans x).queues = s.queues ∧
    (s.setTrans x).items = s.items ∧ (s.setTrans x).lanes = s.lanes ∧ (s.setTrans x).slotLane = s.slotLane ∧
    (s.setTrans x).coded = s.coded ∧ (s.setTrans x).keys = s.keys ∧ (s.setTrans x).lockEnd = s.lockEnd ∧
    (s.setTrans x).rchans = s.rchans ∧ (s.setTrans x).calib = s.calib ∧ (s.setTrans x).fmt = s.fmt ∧
    (s.setTrans x).wrc = s.wrc ∧ (s.setTrans x).mot = s.mot ∧ (s.setTrans x).hst = s.hst ∧ (s.setTrans x).rng = s.rng ∧
    (s.setTrans x).ump = s.ump ∧ (s.setTrans x).team = s.team ∧ (s.setTrans x).boot = s.boot ∧ (s.setTrans x).aon = s.aon ∧
    (s.setTrans x).aonMs = s.aonMs ∧ (s.setTrans x).out = s.out ∧ (s.setTrans x).freeCtr = s.freeCtr :=
    ⟨rfl, rfl, rfl, rfl, rfl, rfl, rfl, rfl, rfl, rfl, rfl, rfl, rfl, rfl, rfl, rfl, rfl, rfl, rfl, rfl, rfl, rfl, rfl, rfl,
    rfl, rfl, rfl, rfl, rfl, rfl, rfl, rfl, rfl, rfl, rfl, rfl, rfl, rfl⟩

/-- `setStream` touches `hst` alone. -/
@[simp] theorem State.setStream_frame (w : WorkItem) (x : Stream) :
    (s.setStream w x).pending = s.pending ∧ (s.setStream w x).regs = s.regs ∧ (s.setStream w x).cores = s.cores ∧
    (s.setStream w x).load = s.load ∧ (s.setStream w x).accepted = s.accepted ∧ (s.setStream w x).held = s.held ∧
    (s.setStream w x).nextSeq = s.nextSeq ∧ (s.setStream w x).txMark = s.txMark ∧ (s.setStream w x).txr = s.txr ∧
    (s.setStream w x).mem = s.mem ∧ (s.setStream w x).located = s.located ∧ (s.setStream w x).tiles = s.tiles ∧
    (s.setStream w x).scrubAt = s.scrubAt ∧ (s.setStream w x).scrubCount = s.scrubCount ∧
    (s.setStream w x).lapStartMs = s.lapStartMs ∧ (s.setStream w x).bufs = s.bufs ∧ (s.setStream w x).free = s.free ∧
    (s.setStream w x).queues = s.queues ∧ (s.setStream w x).items = s.items ∧ (s.setStream w x).lanes = s.lanes ∧
    (s.setStream w x).slotLane = s.slotLane ∧ (s.setStream w x).coded = s.coded ∧ (s.setStream w x).keys = s.keys ∧
    (s.setStream w x).lockEnd = s.lockEnd ∧ (s.setStream w x).rchans = s.rchans ∧ (s.setStream w x).calib = s.calib ∧
    (s.setStream w x).fmt = s.fmt ∧ (s.setStream w x).wrc = s.wrc ∧ (s.setStream w x).mot = s.mot ∧
    (s.setStream w x).rng = s.rng ∧ (s.setStream w x).ump = s.ump ∧ (s.setStream w x).team = s.team ∧
    (s.setStream w x).pwr = s.pwr ∧ (s.setStream w x).boot = s.boot ∧ (s.setStream w x).aon = s.aon ∧
    (s.setStream w x).aonMs = s.aonMs ∧ (s.setStream w x).out = s.out ∧ (s.setStream w x).freeCtr = s.freeCtr :=
    ⟨rfl, rfl, rfl, rfl, rfl, rfl, rfl, rfl, rfl, rfl, rfl, rfl, rfl, rfl, rfl, rfl, rfl, rfl, rfl, rfl, rfl, rfl, rfl, rfl,
    rfl, rfl, rfl, rfl, rfl, rfl, rfl, rfl, rfl, rfl, rfl, rfl, rfl, rfl⟩

/-- `setGroup` touches `hst` alone. -/
@[simp] theorem State.setGroup_frame (g : UnitGroup) :
    (s.setGroup g).pending = s.pending ∧ (s.setGroup g).regs = s.regs ∧ (s.setGroup g).cores = s.cores ∧
    (s.setGroup g).load = s.load ∧ (s.setGroup g).accepted = s.accepted ∧ (s.setGroup g).held = s.held ∧
    (s.setGroup g).nextSeq = s.nextSeq ∧ (s.setGroup g).txMark = s.txMark ∧ (s.setGroup g).txr = s.txr ∧
    (s.setGroup g).mem = s.mem ∧ (s.setGroup g).located = s.located ∧ (s.setGroup g).tiles = s.tiles ∧
    (s.setGroup g).scrubAt = s.scrubAt ∧ (s.setGroup g).scrubCount = s.scrubCount ∧ (s.setGroup g).lapStartMs = s.lapStartMs ∧
    (s.setGroup g).bufs = s.bufs ∧ (s.setGroup g).free = s.free ∧ (s.setGroup g).queues = s.queues ∧
    (s.setGroup g).items = s.items ∧ (s.setGroup g).lanes = s.lanes ∧ (s.setGroup g).slotLane = s.slotLane ∧
    (s.setGroup g).coded = s.coded ∧ (s.setGroup g).keys = s.keys ∧ (s.setGroup g).lockEnd = s.lockEnd ∧
    (s.setGroup g).rchans = s.rchans ∧ (s.setGroup g).calib = s.calib ∧ (s.setGroup g).fmt = s.fmt ∧
    (s.setGroup g).wrc = s.wrc ∧ (s.setGroup g).mot = s.mot ∧ (s.setGroup g).rng = s.rng ∧ (s.setGroup g).ump = s.ump ∧
    (s.setGroup g).team = s.team ∧ (s.setGroup g).pwr = s.pwr ∧ (s.setGroup g).boot = s.boot ∧ (s.setGroup g).aon = s.aon ∧
    (s.setGroup g).aonMs = s.aonMs ∧ (s.setGroup g).out = s.out ∧ (s.setGroup g).freeCtr = s.freeCtr :=
    ⟨rfl, rfl, rfl, rfl, rfl, rfl, rfl, rfl, rfl, rfl, rfl, rfl, rfl, rfl, rfl, rfl, rfl, rfl, rfl, rfl, rfl, rfl, rfl, rfl,
    rfl, rfl, rfl, rfl, rfl, rfl, rfl, rfl, rfl, rfl, rfl, rfl, rfl, rfl⟩

/-- `setCfg` touches `hst` alone. -/
@[simp] theorem State.setCfg_frame (f off : Nat) (v : W32) :
    (s.setCfg f off v).pending = s.pending ∧ (s.setCfg f off v).regs = s.regs ∧ (s.setCfg f off v).cores = s.cores ∧
    (s.setCfg f off v).load = s.load ∧ (s.setCfg f off v).accepted = s.accepted ∧ (s.setCfg f off v).held = s.held ∧
    (s.setCfg f off v).nextSeq = s.nextSeq ∧ (s.setCfg f off v).txMark = s.txMark ∧ (s.setCfg f off v).txr = s.txr ∧
    (s.setCfg f off v).mem = s.mem ∧ (s.setCfg f off v).located = s.located ∧ (s.setCfg f off v).tiles = s.tiles ∧
    (s.setCfg f off v).scrubAt = s.scrubAt ∧ (s.setCfg f off v).scrubCount = s.scrubCount ∧
    (s.setCfg f off v).lapStartMs = s.lapStartMs ∧ (s.setCfg f off v).bufs = s.bufs ∧ (s.setCfg f off v).free = s.free ∧
    (s.setCfg f off v).queues = s.queues ∧ (s.setCfg f off v).items = s.items ∧ (s.setCfg f off v).lanes = s.lanes ∧
    (s.setCfg f off v).slotLane = s.slotLane ∧ (s.setCfg f off v).coded = s.coded ∧ (s.setCfg f off v).keys = s.keys ∧
    (s.setCfg f off v).lockEnd = s.lockEnd ∧ (s.setCfg f off v).rchans = s.rchans ∧ (s.setCfg f off v).calib = s.calib ∧
    (s.setCfg f off v).fmt = s.fmt ∧ (s.setCfg f off v).wrc = s.wrc ∧ (s.setCfg f off v).mot = s.mot ∧
    (s.setCfg f off v).rng = s.rng ∧ (s.setCfg f off v).ump = s.ump ∧ (s.setCfg f off v).team = s.team ∧
    (s.setCfg f off v).pwr = s.pwr ∧ (s.setCfg f off v).boot = s.boot ∧ (s.setCfg f off v).aon = s.aon ∧
    (s.setCfg f off v).aonMs = s.aonMs ∧ (s.setCfg f off v).out = s.out ∧ (s.setCfg f off v).freeCtr = s.freeCtr :=
    ⟨rfl, rfl, rfl, rfl, rfl, rfl, rfl, rfl, rfl, rfl, rfl, rfl, rfl, rfl, rfl, rfl, rfl, rfl, rfl, rfl, rfl, rfl, rfl, rfl,
    rfl, rfl, rfl, rfl, rfl, rfl, rfl, rfl, rfl, rfl, rfl, rfl, rfl, rfl⟩

/-- `updChain` touches `team` alone. -/
@[simp] theorem State.updChain_frame (c : Chain) (f : Chain → Chain) :
    (s.updChain c f).pending = s.pending ∧ (s.updChain c f).regs = s.regs ∧ (s.updChain c f).cores = s.cores ∧
    (s.updChain c f).load = s.load ∧ (s.updChain c f).accepted = s.accepted ∧ (s.updChain c f).held = s.held ∧
    (s.updChain c f).nextSeq = s.nextSeq ∧ (s.updChain c f).txMark = s.txMark ∧ (s.updChain c f).txr = s.txr ∧
    (s.updChain c f).mem = s.mem ∧ (s.updChain c f).located = s.located ∧ (s.updChain c f).tiles = s.tiles ∧
    (s.updChain c f).scrubAt = s.scrubAt ∧ (s.updChain c f).scrubCount = s.scrubCount ∧
    (s.updChain c f).lapStartMs = s.lapStartMs ∧ (s.updChain c f).bufs = s.bufs ∧ (s.updChain c f).free = s.free ∧
    (s.updChain c f).queues = s.queues ∧ (s.updChain c f).items = s.items ∧ (s.updChain c f).lanes = s.lanes ∧
    (s.updChain c f).slotLane = s.slotLane ∧ (s.updChain c f).coded = s.coded ∧ (s.updChain c f).keys = s.keys ∧
    (s.updChain c f).lockEnd = s.lockEnd ∧ (s.updChain c f).rchans = s.rchans ∧ (s.updChain c f).calib = s.calib ∧
    (s.updChain c f).fmt = s.fmt ∧ (s.updChain c f).wrc = s.wrc ∧ (s.updChain c f).mot = s.mot ∧ (s.updChain c f).hst = s.hst ∧
    (s.updChain c f).rng = s.rng ∧ (s.updChain c f).ump = s.ump ∧ (s.updChain c f).pwr = s.pwr ∧
    (s.updChain c f).boot = s.boot ∧ (s.updChain c f).aon = s.aon ∧ (s.updChain c f).aonMs = s.aonMs ∧
    (s.updChain c f).out = s.out ∧ (s.updChain c f).freeCtr = s.freeCtr :=
    ⟨rfl, rfl, rfl, rfl, rfl, rfl, rfl, rfl, rfl, rfl, rfl, rfl, rfl, rfl, rfl, rfl, rfl, rfl, rfl, rfl, rfl, rfl, rfl, rfl,
    rfl, rfl, rfl, rfl, rfl, rfl, rfl, rfl, rfl, rfl, rfl, rfl, rfl, rfl⟩

/-- `setBit` touches `regs` alone. -/
@[simp] theorem State.setBit_frame (f : Field) (k : Nat) (b : Bool) :
    (s.setBit f k b).pending = s.pending ∧ (s.setBit f k b).cores = s.cores ∧ (s.setBit f k b).load = s.load ∧
    (s.setBit f k b).accepted = s.accepted ∧ (s.setBit f k b).held = s.held ∧ (s.setBit f k b).nextSeq = s.nextSeq ∧
    (s.setBit f k b).txMark = s.txMark ∧ (s.setBit f k b).txr = s.txr ∧ (s.setBit f k b).mem = s.mem ∧
    (s.setBit f k b).located = s.located ∧ (s.setBit f k b).tiles = s.tiles ∧ (s.setBit f k b).scrubAt = s.scrubAt ∧
    (s.setBit f k b).scrubCount = s.scrubCount ∧ (s.setBit f k b).lapStartMs = s.lapStartMs ∧ (s.setBit f k b).bufs = s.bufs ∧
    (s.setBit f k b).free = s.free ∧ (s.setBit f k b).queues = s.queues ∧ (s.setBit f k b).items = s.items ∧
    (s.setBit f k b).lanes = s.lanes ∧ (s.setBit f k b).slotLane = s.slotLane ∧ (s.setBit f k b).coded = s.coded ∧
    (s.setBit f k b).keys = s.keys ∧ (s.setBit f k b).lockEnd = s.lockEnd ∧ (s.setBit f k b).rchans = s.rchans ∧
    (s.setBit f k b).calib = s.calib ∧ (s.setBit f k b).fmt = s.fmt ∧ (s.setBit f k b).wrc = s.wrc ∧
    (s.setBit f k b).mot = s.mot ∧ (s.setBit f k b).hst = s.hst ∧ (s.setBit f k b).rng = s.rng ∧ (s.setBit f k b).ump = s.ump ∧
    (s.setBit f k b).team = s.team ∧ (s.setBit f k b).pwr = s.pwr ∧ (s.setBit f k b).boot = s.boot ∧
    (s.setBit f k b).aon = s.aon ∧ (s.setBit f k b).aonMs = s.aonMs ∧ (s.setBit f k b).out = s.out ∧
    (s.setBit f k b).freeCtr = s.freeCtr :=
    ⟨rfl, rfl, rfl, rfl, rfl, rfl, rfl, rfl, rfl, rfl, rfl, rfl, rfl, rfl, rfl, rfl, rfl, rfl, rfl, rfl, rfl, rfl, rfl, rfl,
    rfl, rfl, rfl, rfl, rfl, rfl, rfl, rfl, rfl, rfl, rfl, rfl, rfl, rfl⟩

end Sys2Proof.Machine
end

