-- ==== Sys2Proof/Laws/Reads.lean ====
section
/-!
SUPPORT. Reads after writes: fields of a register word, registers, and the indexed parts of the state; with the keeping of the
canonical form by each small update.
-/
namespace Sys2Proof.Machine

/-! ## Fields of a word -/

theorem Field.testBit_get (f : Field) (v : W32) (j : Nat) :
    (f.get v).testBit j = (decide (j < f.width) && v.getLsbD (f.lo + j)) := by
  simp [Field.get, Nat.testBit_mod_two_pow, Nat.testBit_shiftRight, BitVec.getLsbD]

theorem getLsbD_shifted (y lo k : Nat) :
    (BitVec.ofNat 32 (y <<< lo)).getLsbD k = (decide (k < 32) && (decide (lo ≤ k) && y.testBit (k - lo))) := by
  rw [BitVec.getLsbD_ofNat, Nat.testBit_shiftLeft]

theorem Field.getLsbD_put (f : Field) (v : W32) (x k : Nat) : (f.put v x).getLsbD k =
    if f.lo ≤ k ∧ k < f.lo + f.width then decide (k < 32) && x.testBit (k - f.lo) else v.getLsbD k := by
  rw [Field.put, BitVec.getLsbD_or, BitVec.getLsbD_and, BitVec.getLsbD_not, Field.mask, getLsbD_shifted, getLsbD_shifted,
    Nat.testBit_two_pow_sub_one, Nat.testBit_mod_two_pow]
  by_cases h32 : k < 32
  · by_cases h1 : f.lo ≤ k
    · by_cases h2 : k < f.lo + f.width
      · have h3 : k - f.lo < f.width := by omega
        simp only [h32, h1, h2, h3, decide_true, Bool.true_and, Bool.not_true, Bool.and_false, Bool.false_or, and_self,
          if_true]
      · have h3 : ¬k - f.lo < f.width := by omega
        simp only [h32, h1, h2, h3, decide_true, decide_false, Bool.true_and, Bool.not_false, Bool.and_true, Bool.and_false,
          Bool.or_false, Bool.false_and, and_false, if_false]
    · simp only [h32, h1, decide_true, decide_false, Bool.true_and, Bool.not_false, Bool.and_true, Bool.and_false,
        Bool.or_false, Bool.false_and, false_and, if_false]
  · have h4 : v.getLsbD k = false := BitVec.getLsbD_of_ge v k (by omega)
    simp [h32, h4]

/-- A field reads what was put in it, cut to its width. -/
theorem Field.get_put (f : Field) (v : W32) (x : Nat) (h : f.lo + f.width ≤ 32) : f.get (f.put v x) = x % 2 ^ f.width := by
  apply Nat.eq_of_testBit_eq
  intro j
  rw [Field.testBit_get, Field.getLsbD_put, Nat.testBit_mod_two_pow]
  by_cases hj : j < f.width
  · have h1 : f.lo ≤ f.lo + j ∧ f.lo + j < f.lo + f.width := by omega
    have h2 : f.lo + j < 32 := by omega
    simp [hj, h2]
  · simp [hj]

/-- Another field of the word keeps its value. -/
theorem Field.get_put_ne (f g : Field) (v : W32) (x : Nat) (h : f.lo + f.width ≤ g.lo ∨ g.lo + g.width ≤ f.lo) :
    g.get (f.put v x) = g.get v := by
  apply Nat.eq_of_testBit_eq
  intro j
  rw [Field.testBit_get, Field.testBit_get, Field.getLsbD_put]
  by_cases hj : j < g.width
  · have h1 : ¬(f.lo ≤ g.lo + j ∧ g.lo + j < f.lo + f.width) := by omega
    simp [h1]
  · simp [hj]

theorem Field.get_lt (f : Field) (v : W32) : f.get v < 2 ^ f.width := Nat.mod_lt _ (Nat.two_pow_pos _)

/-- A word with a field put to what it holds is the word. -/
theorem Field.put_get (f : Field) (v : W32) : f.put v (f.get v) = v := by
  apply BitVec.eq_of_getLsbD_eq
  intro k hk
  rw [Field.getLsbD_put]
  split
  · rename_i h
    have h1 : k - f.lo < f.width := by omega
    have h2 : f.lo + (k - f.lo) = k := by omega
    simp [Field.testBit_get, h1, h2, hk]
  · rfl

/-! ## Registers -/

theorem State.reg_setReg (s : State) (a b : Nat) (v : W32) (h : regsWf s.regs = true) :
    (s.setReg a v).reg b = if b = a then v else s.reg b := by
  simp only [State.setReg, State.reg]
  exact SMap.get_set h

theorem regsWf_setReg (s : State) (a : Nat) (v : W32) (h : regsWf s.regs = true) : regsWf (s.setReg a v).regs = true :=
  SMap.wf_set h

theorem regsWf_setFld (s : State) (f : Field) (x i : Nat) (h : regsWf s.regs = true) : regsWf (s.setFld f x i).regs = true :=
  SMap.wf_set h

theorem State.reg_setFld (s : State) (f : Field) (x i b : Nat) (h : regsWf s.regs = true) :
    (s.setFld f x i).reg b = if b = f.addr i then f.put (s.reg (f.addr i)) x else s.reg b :=
  State.reg_setReg s _ _ _ h

/-- A field reads what was put in it. -/
theorem State.fld_setFld_self (s : State) (f : Field) (x i : Nat) (h : regsWf s.regs = true) (hf : f.lo + f.width ≤ 32) :
    (s.setFld f x i).fld f i = x % 2 ^ f.width := by
  simp only [State.fld, State.reg_setFld s f x i _ h, if_pos]
  exact Field.get_put f _ x hf

/-- A field of another register keeps its value. -/
theorem State.fld_setFld_addr (s : State) (f g : Field) (x i j : Nat) (h : regsWf s.regs = true) (ha : g.addr j ≠ f.addr i) :
    (s.setFld f x i).fld g j = s.fld g j := by
  simp only [State.fld, State.reg_setFld s f x i _ h, if_neg ha]

/-- Another field of the same register keeps its value. -/
theorem State.fld_setFld_ne (s : State) (f g : Field) (x i j : Nat) (h : regsWf s.regs = true)
    (hd : f.lo + f.width ≤ g.lo ∨ g.lo + g.width ≤ f.lo) : (s.setFld f x i).fld g j = s.fld g j := by
  by_cases ha : g.addr j = f.addr i
  · simp only [State.fld, State.reg_setFld s f x i _ h, ha, if_pos, Field.get_put_ne f g _ x hd]
  · exact State.fld_setFld_addr s f g x i j h ha

/-- A field set to what it holds changes nothing. -/
theorem State.setFld_self (s : State) (f : Field) (i : Nat) (h : regsWf s.regs = true) : s.setFld f (s.fld f i) i = s := by
  have : s.regs.set resetOf (f.addr i) (s.reg (f.addr i)) = s.regs := SMap.set_get_self h
  simp only [State.setFld, State.fld, Field.put_get, State.setReg, this]

/-! ## The indexed parts -/

theorem State.core_setCore (s : State) (n k : Nat) (c : Core) (h : SMap.wf (fun _ => ({} : Core)) s.cores = true) :
    (s.setCore n c).core k = if k = n then c else s.core k := SMap.get_set h

theorem State.cmds_setCmds (s : State) (n k : Nat) (l : List Cmd) (h : SMap.wf (fun _ => ([] : List Cmd)) s.accepted = true) :
    (s.setCmds n l).cmds k = if k = n then l else s.cmds k := SMap.get_set h

theorem State.tileRec_setTileRec (s : State) (n k : Nat) (r : TileRec) (h : SMap.wf (fun _ => ({} : TileRec)) s.tiles = true) :
    (s.setTileRec n r).tileRec k = if k = n then r else s.tileRec k := SMap.get_set h

theorem State.queue_setQueue (s : State) (n k : Nat) (x : Queue) (h : SMap.wf (fun _ => ({} : Queue)) s.queues = true) :
    (s.setQueue n x).queue k = if k = n then x else s.queue k := SMap.get_set h

theorem State.freeList_setFree (s : State) (n k : Nat) (l : List Nat) (h : SMap.wf (fun _ => ([] : List Nat)) s.free = true) :
    (s.setFree n l).freeList k = if k = n then l else s.freeList k := SMap.get_set h

theorem State.lane_setLane (s : State) (n k : Nat) (x : Lane) (h : SMap.wf (fun _ => ({} : Lane)) s.lanes = true) :
    (s.setLane n x).lane k = if k = n then x else s.lane k := SMap.get_set h

theorem State.key_setKey (s : State) (n k : Nat) (x : KeySlot) (h : SMap.wf (fun _ => ({} : KeySlot)) s.keys = true) :
    (s.setKey n x).key k = if k = n then x else s.key k := SMap.get_set h

theorem State.rchan_setRchan (s : State) (n k : Nat) (r : RChan) (h : SMap.wf (fun _ => ({} : RChan)) s.rchans = true) :
    (s.setRchan n r).rchan k = if k = n then r else s.rchan k := SMap.get_set h

theorem State.wchan_setWchan (s : State) (n k : Nat) (w : WChan) (h : SMap.wf (fun _ => ({} : WChan)) s.wrc.chans = true) :
    (s.setWchan n w).wchan k = if k = n then w else s.wchan k := SMap.get_set h

theorem State.srvChan_setSrvChan (s : State) (n k : Nat) (x : SrvChan) (h : SMap.wf (fun _ => ({} : SrvChan)) s.mot.srv = true) :
    (s.setSrvChan n x).srvChan k = if k = n then x else s.srvChan k := SMap.get_set h

theorem State.livePort_setLive (s : State) (n k : Nat) (x : Rat) (h : SMap.wf (fun _ => (0 : Rat)) s.mot.live = true) :
    (s.setLive n x).livePort k = if k = n then x else s.livePort k := SMap.get_set h

/-- A byte of tile memory after a store. -/
theorem State.memByte_memStore (s : State) (a b : Nat) (l : List Byte) (h : Memory.wf s.mem = true) :
    (s.memStore a l).memByte b = if a ≤ b ∧ b < a + l.length then l.getD (b - a) 0 else s.memByte b :=
  SMap.get_store h

/-- Tile memory keeps its canonical form. -/
theorem State.wf_memStore (s : State) (a : Nat) (l : List Byte) (h : Memory.wf s.mem = true) :
    Memory.wf (s.memStore a l).mem = true := SMap.wf_store h

/-! ## The canonical form of the state -/

theorem State.canonical_iff (s : State) : s.canonical = true ↔
    regsWf s.regs = true ∧ SMap.wf (fun _ => ({} : Core)) s.cores = true ∧
    SMap.wf (fun _ => ([] : List Cmd)) s.accepted = true ∧ SMap.wf (fun _ => (0 : W64)) s.txr = true ∧
    Memory.wf s.mem = true ∧ SMap.wf (fun _ => false) s.located = true ∧ SMap.wf (fun _ => ({} : TileRec)) s.tiles = true ∧
    SMap.wf (fun _ => ({} : Buf)) s.bufs = true ∧ SMap.wf (fun _ => ([] : List Nat)) s.free = true ∧
    SMap.wf (fun _ => ({} : Queue)) s.queues = true ∧ SMap.wf (fun _ => (0 : W128)) s.items = true ∧
    SMap.wf (fun _ => ({} : Lane)) s.lanes = true ∧ SMap.wf (fun _ => (none : Option Nat)) s.slotLane = true ∧
    SMap.wf (fun _ => ({} : KeySlot)) s.keys = true ∧ SMap.wf (fun _ => ({} : RChan)) s.rchans = true ∧
    SMap.wf (fun _ => (0 : Byte)) s.aon = true := by
  simp only [State.canonical, Bool.and_eq_true, and_assoc]

theorem State.canonical_regs {s : State} (h : s.canonical = true) : regsWf s.regs = true := (s.canonical_iff.1 h).1
theorem State.canonical_cores {s : State} (h : s.canonical = true) : SMap.wf (fun _ => ({} : Core)) s.cores = true :=
  (s.canonical_iff.1 h).2.1
theorem State.canonical_accepted {s : State} (h : s.canonical = true) :
    SMap.wf (fun _ => ([] : List Cmd)) s.accepted = true := (s.canonical_iff.1 h).2.2.1

theorem canonical_setReg (s : State) (a : Nat) (v : W32) (h : s.canonical = true) : (s.setReg a v).canonical = true := by
  rw [State.canonical_iff] at h ⊢; exact ⟨SMap.wf_set h.1, h.2⟩

theorem canonical_setFld (s : State) (f : Field) (x i : Nat) (h : s.canonical = true) : (s.setFld f x i).canonical = true :=
  canonical_setReg s _ _ h
theorem canonical_setFlag (s : State) (f : Field) (b : Bool) (i : Nat) (h : s.canonical = true) :
    (s.setFlag f b i).canonical = true := canonical_setReg s _ _ h
theorem canonical_raise (s : State) (f : Field) (i : Nat) (h : s.canonical = true) : (s.raise f i).canonical = true :=
  canonical_setReg s _ _ h
theorem canonical_bump (s : State) (f : Field) (n i : Nat) (h : s.canonical = true) : (s.bump f n i).canonical = true :=
  canonical_setReg s _ _ h
theorem canonical_emit (s : State) (o : Out) (h : s.canonical = true) : (s.emit o).canonical = true := h
theorem canonical_nextFree (s : State) (h : s.canonical = true) : s.nextFree.canonical = true := h
theorem canonical_finish (s : State) (c : Cmd) (st : W16) (d r : Nat) (m : Bool) (h : s.canonical = true) :
    (s.finish c st d r m).canonical = true := h

theorem canonical_setCore (s : State) (n : Nat) (c : Core) (h : s.canonical = true) : (s.setCore n c).canonical = true := by
  rw [State.canonical_iff] at h ⊢; exact ⟨h.1, SMap.wf_set h.2.1, h.2.2⟩

theorem canonical_setCmds (s : State) (n : Nat) (l : List Cmd) (h : s.canonical = true) : (s.setCmds n l).canonical = true := by
  rw [State.canonical_iff] at h ⊢; exact ⟨h.1, h.2.1, SMap.wf_set h.2.2.1, h.2.2.2⟩

theorem canonical_start (s : State) (c : Cmd) (h : s.canonical = true) : (s.start c).canonical = true := canonical_setCmds s _ _ h

theorem canonical_memStore (s : State) (a : Nat) (l : List Byte) (h : s.canonical = true) :
    (s.memStore a l).canonical = true := by
  rw [State.canonical_iff] at h ⊢
  obtain ⟨h1, h2, h3, h4, h5, h6, h7⟩ := h
  exact ⟨h1, h2, h3, h4, SMap.wf_store h5, SMap.wf_clear h6, h7⟩

theorem canonical_setTileRec (s : State) (n : Nat) (r : TileRec) (h : s.canonical = true) :
    (s.setTileRec n r).canonical = true := by
  rw [State.canonical_iff] at h ⊢
  obtain ⟨h1, h2, h3, h4, h5, h6, h7, h8⟩ := h
  exact ⟨h1, h2, h3, h4, h5, h6, SMap.wf_set h7, h8⟩

theorem canonical_setBuf (s : State) (c n : Nat) (b : Buf) (h : s.canonical = true) : (s.setBuf c n b).canonical = true := by
  rw [State.canonical_iff] at h ⊢
  obtain ⟨h1, h2, h3, h4, h5, h6, h7, h8, h9⟩ := h
  exact ⟨h1, h2, h3, h4, h5, h6, h7, SMap.wf_set h8, h9⟩

theorem canonical_setFree (s : State) (c : Nat) (l : List Nat) (h : s.canonical = true) : (s.setFree c l).canonical = true := by
  rw [State.canonical_iff] at h ⊢
  obtain ⟨h1, h2, h3, h4, h5, h6, h7, h8, h9, h10⟩ := h
  exact ⟨h1, h2, h3, h4, h5, h6, h7, h8, SMap.wf_set h9, h10⟩

theorem canonical_setQueue (s : State) (q : Nat) (x : Queue) (h : s.canonical = true) : (s.setQueue q x).canonical = true := by
  rw [State.canonical_iff] at h ⊢
  obtain ⟨h1, h2, h3, h4, h5, h6, h7, h8, h9, h10, h11⟩ := h
  exact ⟨h1, h2, h3, h4, h5, h6, h7, h8, h9, SMap.wf_set h10, h11⟩

theorem canonical_setLane (s : State) (l : Nat) (x : Lane) (h : s.canonical = true) : (s.setLane l x).canonical = true := by
  rw [State.canonical_iff] at h ⊢
  obtain ⟨h1, h2, h3, h4, h5, h6, h7, h8, h9, h10, h11, h12, h13⟩ := h
  exact ⟨h1, h2, h3, h4, h5, h6, h7, h8, h9, h10, h11, SMap.wf_set h12, h13⟩

theorem canonical_setKey (s : State) (n : Nat) (k : KeySlot) (h : s.canonical = true) : (s.setKey n k).canonical = true := by
  rw [State.canonical_iff] at h ⊢
  obtain ⟨h1, h2, h3, h4, h5, h6, h7, h8, h9, h10, h11, h12, h13, h14, h15⟩ := h
  exact ⟨h1, h2, h3, h4, h5, h6, h7, h8, h9, h10, h11, h12, h13, SMap.wf_set h14, h15⟩

theorem canonical_setRchan (s : State) (c : Nat) (r : RChan) (h : s.canonical = true) : (s.setRchan c r).canonical = true := by
  rw [State.canonical_iff] at h ⊢
  obtain ⟨h1, h2, h3, h4, h5, h6, h7, h8, h9, h10, h11, h12, h13, h14, h15, h16⟩ := h
  exact ⟨h1, h2, h3, h4, h5, h6, h7, h8, h9, h10, h11, h12, h13, h14, SMap.wf_set h15, h16⟩

theorem canonical_aonStore (s : State) (a : Nat) (l : List Byte) (h : s.canonical = true) :
    (s.aonStore a l).canonical = true := by
  rw [State.canonical_iff] at h ⊢
  obtain ⟨h1, h2, h3, h4, h5, h6, h7, h8, h9, h10, h11, h12, h13, h14, h15, h16⟩ := h
  exact ⟨h1, h2, h3, h4, h5, h6, h7, h8, h9, h10, h11, h12, h13, h14, h15, SMap.wf_store h16⟩

/-- A run of updates keeps the canonical form when each does. -/
theorem canonical_each {α : Type} {f : State → α → State} (hf : ∀ s a, s.canonical = true → (f s a).canonical = true)
    (s : State) (l : List α) (h : s.canonical = true) : (s.each l f).canonical = true := by
  induction l generalizing s with
  | nil => exact h
  | cons a l ih => exact ih _ (hf s a h)

/-! ## Shared operations -/

/-- Everything that one instruction of a core can do (R277, R284, R308): nothing where the core does not execute, LOCAL_RANGE beyond
its code, ILLEGAL for a word that is no instruction, or what the instruction's own effect says. -/
theorem laruf_cases (n : CoreId) (s : State) (f : Core → Effect) :
    ((s.clocked = false ∨ (s.core n).run ≠ .running ∨ (s.core n).stall ≠ .none) ∧ laruf n s f = .next s) ∨
    (s.clocked = true ∧ (s.core n).run = .running ∧ (s.core n).stall = .none ∧
      (((s.core n).codeLen ≤ (s.core n).pc ∧
          laruf n s f = .next (s.exception n Exc.LOCAL_RANGE (some (BitVec.ofNat 64 (s.core n).pc)) 0)) ∨
        ((s.core n).pc < (s.core n).codeLen ∧ s.larufAt n = none ∧ laruf n s f = .next (s.exception n Exc.ILLEGAL none 0)) ∨
        ((s.core n).pc < (s.core n).codeLen ∧ (s.larufAt n).isSome = true ∧
          ((∃ t, f (s.core n) = .done t ∧ laruf n s f = .next (t.setCore n (t.core n).advance)) ∨
            (∃ t d, f (s.core n) = .goto t d ∧ laruf n s f = .next (t.setCore n ((t.core n).jump d))) ∨
            (∃ code a st, f (s.core n) = .raise code a st ∧ laruf n s f = .next (s.exception n code a st)) ∨
            ∃ t, f (s.core n) = .stay t ∧ laruf n s f = .next t)))) := by
  by_cases h : (!s.clocked) = true ∨ (s.core n).run ≠ .running ∨ (s.core n).stall ≠ .none
  · exact .inl ⟨by simpa using h, by simp only [laruf, if_pos h]⟩
  · have hk : s.clocked = true := Classical.byContradiction fun x => h (.inl (by simpa using x))
    have hr : (s.core n).run = .running := Classical.byContradiction fun x => h (.inr (.inl x))
    have hs : (s.core n).stall = .none := Classical.byContradiction fun x => h (.inr (.inr x))
    refine .inr ⟨hk, hr, hs, ?_⟩
    by_cases hp : (s.core n).codeLen ≤ (s.core n).pc
    · exact .inl ⟨hp, by simp only [laruf, if_neg h, if_pos hp]⟩
    · have hl : (s.core n).pc < (s.core n).codeLen := by omega
      cases ha : s.larufAt n with
      | none => exact .inr (.inl ⟨hl, rfl, by simp [laruf, hk, hr, hs, hp, ha]⟩)
      | some i =>
        refine .inr (.inr ⟨hl, rfl, ?_⟩)
        cases hf : f (s.core n) with
        | done t => exact .inl ⟨t, rfl, by simp [laruf, hk, hr, hs, hp, ha, hf]⟩
        | goto t d => exact .inr (.inl ⟨t, d, rfl, by simp [laruf, hk, hr, hs, hp, ha, hf]⟩)
        | raise code a st => exact .inr (.inr (.inl ⟨code, a, st, rfl, by simp [laruf, hk, hr, hs, hp, ha, hf]⟩))
        | stay t => exact .inr (.inr (.inr ⟨t, rfl, by simp [laruf, hk, hr, hs, hp, ha, hf]⟩))

/-- What a running core does with an effect, when it executes. -/
theorem laruf_runs {n : CoreId} {s : State} {f : Core → Effect} (hk : s.clocked = true) (hr : (s.core n).run = .running)
    (hs : (s.core n).stall = .none) (hp : (s.core n).pc < (s.core n).codeLen) (ha : (s.larufAt n).isSome = true) :
    laruf n s f =
      match f (s.core n) with
      | .done t => .next (t.setCore n (t.core n).advance)
      | .goto t d => .next (t.setCore n ((t.core n).jump d))
      | .raise code a st => .next (s.exception n code a st)
      | .stay t => .next t := by
  have h : ¬((!s.clocked) = true ∨ (s.core n).run ≠ .running ∨ (s.core n).stall ≠ .none) := by simp [hk, hr, hs]
  have hp' : ¬(s.core n).codeLen ≤ (s.core n).pc := by omega
  have ha' : ¬(s.larufAt n).isNone = true := by cases hx : s.larufAt n <;> simp_all
  simp only [laruf, if_neg h, if_neg hp', if_neg ha']
  all_goals (cases f (s.core n) <;> rfl)

/-- Everything that an engine's command row can do: nothing where no such command may start, BAD_OWNER where it named a buffer of
another owner, or the command's own work on the state it leaves as it starts (R317, R322). -/
theorem runCmd_cases (t i code : Nat) (s : State) (f : Cmd → State → State) :
    (s.ready t i code = none ∧ runCmd t i code s f = .next s) ∨
    (∃ c, s.ready t i code = some c ∧
      ((c.badOwner = true ∧ runCmd t i code s f = .next ((s.start c).finish c St.BAD_OWNER)) ∨
        (c.badOwner = false ∧ runCmd t i code s f = .next (f c (s.start c))))) := by
  cases h : s.ready t i code with
  | none => exact .inl ⟨rfl, by simp only [runCmd, h]⟩
  | some c =>
    refine .inr ⟨c, rfl, ?_⟩
    cases hb : c.badOwner with
    | true => exact .inl ⟨rfl, by simp [runCmd, h, hb]⟩
    | false => exact .inr ⟨rfl, by simp [runCmd, h, hb]⟩

/-- When a command may start. -/
theorem ready_some {s : State} {t i code : Nat} {c : Cmd} (h : (s.cmds t)[i]? = some c) (hc : dCode c.desc = code)
    (hk : s.clocked = true) (hf : s.fenceOpen c = true) : s.ready t i code = some c := by
  simp [State.ready, hk, h, hc, hf]

/-- A write to a register of a block that S6 or S7 holds only sets its flag; otherwise it is as it is (R467). -/
theorem unlessHeld_cases (s : State) (f : Field) (t : State) :
    (s.afeHeld = true ∧ s.unlessHeld f t = s.raise f) ∨ (s.afeHeld = false ∧ s.unlessHeld f t = t) := by
  cases h : s.afeHeld with
  | true => exact .inl ⟨rfl, by simp [State.unlessHeld, h]⟩
  | false => exact .inr ⟨rfl, by simp [State.unlessHeld, h]⟩

end Sys2Proof.Machine
end

