-- ==== Sys2Proof/Laws/Memory.lean ====
section
/-!
SUPPORT. Every operation over tile memory keeps its canonical form, with that of the rest of the state: writes and verifies of one
tile, of a range and of a buffer, and the reports to the umpire that they raise.
-/
namespace Sys2Proof.Machine

theorem canonical_poisonTile (s : State) (t : Nat) (h : s.canonical = true) : (s.poisonTile t).canonical = true :=
  canonical_bump _ _ _ _ (canonical_setFld _ _ _ _ (canonical_raise _ _ _ (canonical_setTileRec _ _ _ h)))

theorem canonical_foldl {α : Type} {f : State → α → State} (hf : ∀ s a, s.canonical = true → (f s a).canonical = true)
    (l : List α) (s : State) (h : s.canonical = true) : (l.foldl f s).canonical = true := canonical_each hf s l h

/-- A full verify keeps the canonical form. -/
theorem canonical_verifyTile (s : State) (t : Nat) (h : s.canonical = true) : (s.verifyTile t).1.canonical = true := by
  simp only [State.verifyTile]
  split
  · exact canonical_poisonTile _ _ h
  · split
    · exact canonical_poisonTile _ _ h
    · split
      · exact canonical_setTileRec _ _ _ h
      · exact canonical_bump _ _ _ _ (canonical_raise _ _ _ (canonical_setTileRec _ _ _
          (canonical_foldl (fun s e hs => canonical_memStore s _ _ hs) _ _ h)))

/-- A write to one tile keeps the canonical form. -/
theorem canonical_tileWrite (s : State) (t o : Nat) (l : List Byte) (m : Bool) (h : s.canonical = true) :
    (s.tileWrite t o l m).1.canonical = true := by
  have key : ∀ (u : State) (bad : Bool), u.canonical = true →
      ((let r := u.tileRec t
        let s := if r.fill < o then u.memStore (4096 * t + r.fill) (List.replicate (o - r.fill) 0) else u
        let s := s.memStore (4096 * t + o) l
        let r := if bad then { r with recBad := false, crcDiff := 0, pDiff := 0, qDiff := 0 } else r
        (s.setTileRec t { r with fill := max r.fill (o + l.length), verified := false, poison := r.poison || m }, bad)).1
        : State).canonical = true := by
    intro u bad hu
    refine canonical_setTileRec _ _ _ (canonical_memStore _ _ _ ?_)
    split
    · exact canonical_memStore _ _ _ hu
    · exact hu
  unfold State.tileWrite
  generalize (s.strong t && !(s.tileRec t).poison && !(s.locatedIn t o l.length).isEmpty) = hit
  cases l.isEmpty
  · cases hit
    · exact key s false h
    · exact key _ _ (canonical_verifyTile s t h)
  · exact h

/-- The verify before a use keeps the canonical form. -/
theorem canonical_tileUse (s : State) (t o n : Nat) (h : s.canonical = true) : (s.tileUse t o n).1.canonical = true := by
  have hp := canonical_poisonTile s t h
  have hv := canonical_verifyTile s t h
  simp only [State.tileUse, apply_ite Prod.fst, apply_ite State.canonical, h, hp, hv, ite_self]

theorem canonical_rangeWrite (m : Bool) (r : List (Nat × Nat × Nat)) (s : State) (l : List Byte) (h : s.canonical = true) :
    (s.rangeWrite m r l).1.canonical = true := by
  induction r generalizing s l with
  | nil => exact h
  | cons e r ih =>
    obtain ⟨t, o, n⟩ := e
    simp only [State.rangeWrite]
    exact ih _ _ (canonical_tileWrite s t o _ m h)

theorem canonical_rangeUse (r : List (Nat × Nat × Nat)) (s : State) (h : s.canonical = true) :
    (s.rangeUse r).1.canonical = true := by
  induction r generalizing s with
  | nil => exact h
  | cons e r ih =>
    obtain ⟨t, o, n⟩ := e
    simp only [State.rangeUse]
    exact ih _ (canonical_tileUse s t o n h)

/-! ## Reports -/

theorem canonical_setRport (s : State) (p : Port) (r : RPort) (h : s.canonical = true) : (s.setRport p r).canonical = true := by
  cases p <;> exact h

theorem canonical_ringEmit (s : State) (p : Port) (f : OutFrame) (h : s.canonical = true) : (s.ringEmit p f).canonical = true :=
  canonical_setRport _ _ _ h

theorem canonical_ringPut (s : State) (p : Port) (b : Bool) (n : Nat) (x y : List Byte) (h : s.canonical = true) :
    (s.ringPut p b n x y).canonical = true := by
  simp only [State.ringPut]
  split
  · exact canonical_ringEmit _ _ _ (canonical_setRport _ _ _ h)
  · exact canonical_setRport _ _ _ h

theorem canonical_ringBroadcast (s : State) (c : Nat) (l : List Byte) (h : s.canonical = true) :
    (s.ringBroadcast c l).canonical = true := by
  simp only [State.ringBroadcast]
  split
  · exact h
  · split
    · exact h
    · exact canonical_ringPut _ _ _ _ _ _ h

theorem canonical_logStore (s : State) (t n : Nat) (p : Bool) (b : List Byte) (h : s.canonical = true) :
    (s.logStore t n p b).1.canonical = true :=
  canonical_setCore _ _ _ (canonical_bump _ _ _ _ (canonical_tileWrite s t _ b false h))

theorem canonical_logNext (s : State) (h : s.canonical = true) : s.logNext.canonical = true := by
  rw [State.logNext]
  exact canonical_setFld _ _ _ _ h

theorem canonical_logWrite (s : State) (p : Bool) (b : List Byte) (h : s.canonical = true) : (s.logWrite p b).1.canonical = true := by
  rw [State.logWrite]
  cases s.logTile with
  | none => exact h
  | some tile =>
    by_cases h1 : s.logUnread < 128
    · simp only [h1, if_true]; exact canonical_logNext _ (canonical_logStore _ _ _ _ _ h)
    · simp only [h1, if_false]
      cases p with
      | true => exact h
      | false =>
        cases s.oldestPartner with
        | none => exact h
        | some slot => exact canonical_logStore _ _ _ _ _ h

theorem canonical_umpWrite (s : State) (r : Report) (b : Bool) (n : Nat) (h : s.canonical = true) :
    (s.umpWrite r b n).1.canonical = true := by
  have hc : ∀ (ok : Bool) (t : State), t.canonical = true → (if ok = true then t else t.countDrop).canonical = true := by
    intro ok t ht; split
    · exact ht
    · exact canonical_bump _ _ _ _ ht
  simp only [State.umpWrite]
  split
  · exact canonical_ringBroadcast _ _ _ (hc _ _ (canonical_logWrite _ _ _ h))
  · exact hc _ _ (canonical_logWrite _ _ _ h)

theorem canonical_openWindow (s : State) (r : Report) (h : s.canonical = true) : (s.openWindow r).1.canonical = true :=
  canonical_umpWrite _ _ _ _ h

theorem canonical_closeWindow (s : State) (w : Window) (h : s.canonical = true) : (s.closeWindow w).1.canonical = true := by
  simp only [State.closeWindow]
  split
  · exact h
  · exact canonical_umpWrite _ _ _ _ h

theorem canonical_umpTake (s : State) (r : Report) (h : s.canonical = true) : (s.umpTake r).1.canonical = true := by
  simp only [State.umpTake]
  split
  · exact h
  · split
    · exact canonical_openWindow _ _ h
    · split
      · exact canonical_bump _ _ _ _ h
      · split
        · exact canonical_bump _ _ _ _ h
        · exact canonical_openWindow _ _ (canonical_closeWindow _ _ h)

theorem canonical_dropReport (s : State) (h : s.canonical = true) : s.dropReport.1.canonical = true := by
  simp only [State.dropReport]
  have hl := canonical_logWrite s false (reportBytes 0x0201 s.devId s.devId false true false s.ump.dropsSince 1 s.aonMs) h
  generalize s.logWrite false (reportBytes 0x0201 s.devId s.devId false true false s.ump.dropsSince 1 s.aonMs) = p at hl ⊢
  obtain ⟨u, ok, bad⟩ := p
  have hb : (State.ringBroadcast { u with ump := { u.ump with dropMs := some u.aonMs, dropsSince := 0 } } 0x01
      (reportBytes 0x0201 s.devId s.devId false true false s.ump.dropsSince 1 s.aonMs)).canonical = true :=
    canonical_ringBroadcast _ _ _ hl
  split
  · exact h
  · cases ok
    · cases s.ump.dropMs
      · exact hl
      · rename_i t
        cases hd : decide (t + 100 ≤ s.aonMs)
        · simp only [hd]; exact h
        · simp only [hd]; exact hl
    · cases s.ump.dropMs
      · exact hb
      · rename_i t
        cases hd : decide (t + 100 ≤ s.aonMs)
        · simp only [hd]; exact h
        · simp only [hd]; exact hb

theorem canonical_umpAll (k : Nat) (l : List Report) (s : State) (h : s.canonical = true) : (s.umpAll k l).canonical = true := by
  induction k generalizing s l with
  | zero => cases l <;> exact h
  | succ k ih =>
    cases l with
    | nil => exact h
    | cons r l =>
      simp only [State.umpAll]
      exact ih _ _ (canonical_dropReport _ (canonical_umpTake _ _ h))

/-- A report to the umpire keeps the canonical form. -/
theorem canonical_report (s : State) (c d : Nat) (h : s.canonical = true) : (s.report c d).canonical = true :=
  canonical_umpAll _ _ _ h

theorem canonical_reportTiles (s : State) (l : List Nat) (h : s.canonical = true) : (s.reportTiles l).canonical = true :=
  canonical_foldl (fun s t hs => canonical_report s _ _ hs) _ _ h

end Sys2Proof.Machine
end

