-- ==== Sys2Proof/Tests/Slice0.lean ====
section
/-!
SUPPORT. Tests: the worked examples of the spec, an ill-formed command for each check of the well-formedness predicate, commands
on small states, and for every obligation with hypotheses states and operands that meet them.
-/
namespace Sys2Proof.Tests
open Sys2Proof Sys2Proof.Machine Sys2Proof.Claims

set_option Elab.async false
/-! ## The worked examples of the spec -/

/-- 2-3 R88: the nine bytes "123456789". -/
def nine : List Byte := (List.range 9).map fun k => BitVec.ofNat 8 (0x31 + k)

/-- 2-3 R88, the check values. -/
theorem test_crc_check_values : crc32c nine = 0xE3069283 ∧ crc16 nine = 0x29B1 ∧ crc8 nine = 0xF4 := by decide +kernel

/-- 2-3 R89, as stored. -/
theorem test_crc32c_stored : leBytes 4 (crc32c nine).toNat = [0x83, 0x92, 0x06, 0xE3] := by decide +kernel

/-- 2-2 worked example, step 6. -/
theorem test_header : courseHeader 1234567 45 10 0 1 = 0x012D687B42817C91 := by decide +kernel

/-- 2-2 worked example, step 6, read back. -/
theorem test_header_fields :
    headerOk 0x012D687B42817C91 = true ∧ hdrYealm 0x012D687B42817C91 = 1234567 ∧ hdrGroup 0x012D687B42817C91 = 45 ∧
      hdrIndex 0x012D687B42817C91 = 10 ∧ hdrRewrite 0x012D687B42817C91 = 0 ∧ hdrSelector 0x012D687B42817C91 = 1 := by
  decide +kernel

/-- 2-2 worked example, step 5. -/
theorem test_lpos_crc : crc8 [0x2F, 0x26, 0x4A] = 0x25 := by decide +kernel

/-- 2-2 worked example, step 2. -/
theorem test_servo_track : targetTrack 61 59 = 5569 ∧ grayDecode 0x1F21 = 0x15C1 := by decide +kernel

/-- 2-3 R83: the header mask, as far as the word the rule gives and the sequence it names agree; the model takes the word. -/
theorem test_header_mask : scramble 60 0x4A3F19C5 = (bitsOf 64 headerMask.toNat).take 60 := by decide +kernel

/-- 2-3 worked example, step 1. -/
theorem test_header_scrambled : (0x012D687B42817C91 : W64) ^^^ headerMask = 0x95535BF126F35FE6 := by decide +kernel

/-- 2-3 worked example, steps 2 and 3. -/
theorem test_payload_seed : payloadSeed 1234567 45 10 = 0x3531ED0A ∧ scramble 32 0x3531ED0A = bitsOf 32 0x6A63DA14 := by
  decide +kernel

/-- 2-3 worked example of R86. -/
theorem test_modulation : modulate 2 (bitsOf 64 0x95535BF126F35FE6) =
    bitsOf 32 0x95535BF1 ++ [false] ++ bitsOf 32 0x26F35FE6 ++ [true] := by decide +kernel

/-- 2-3 worked example of C1: its twelve parity bytes that are not zero, at their places among the 128. -/
theorem test_c1_encode :
    ((c1Encode (0x80 :: List.replicate 1023 0)).drop 1024).zipIdx.filter (fun e => e.1 != 0) =
      [(0x10, 11), (0x01, 20), (0x04, 22), (0x40, 30), (0x20, 43), (0x02, 52), (0x08, 54), (0xC0, 62), (0x30, 75), (0x03, 84),
       (0x08, 86), (0x80, 94), (0x20, 107), (0x03, 116), (0x08, 118), (0x80, 126)] := by decide +kernel

/-- 2-3 worked example of C2. -/
theorem test_c2_parity : rsParity 16 (List.replicate 223 0 ++ [1]) =
    [0x3B, 0x0D, 0x68, 0xBD, 0x44, 0xD1, 0x1E, 0x08, 0xA3, 0x41, 0x29, 0xE5, 0x62, 0x32, 0x24, 0x3B] := by decide +kernel

/-- 2-3 worked example of C3. -/
theorem test_c3_parity : rsParity 2 (List.replicate 13 0 ++ [1]) = [0x03, 0x02] ∧
    rsParity 2 (List.replicate 12 0 ++ [1, 0]) = [0x07, 0x06] := by decide +kernel

/-- A C3 erasure is filled in (2-3 R104). -/
theorem test_c3_decode : (rsDecode 2 (List.replicate 13 0 ++ [0, 0x03, 0x02]) [13]).map Prod.fst =
    some (List.replicate 13 0 ++ [1, 0x03, 0x02]) := by decide +kernel

/-- A course of channel 59 for the packing example. -/
def packCourse (p : Nat) : CourseOut :=
  { kind := .orig, job := 0, yealm := 1234567, pos := p, k := 55, n := 60, g := 45, i := p, rewrite := 0, selector := 1 }

/-- 2-2 worked example, the table of its step 3: segments 0 to 2, as (course, bits). -/
theorem test_packing :
    let bits (ps : List (CourseOut × Nat × Nat)) := ps.map fun e => (e.1.pos, atomEnd e.2.2 - atomEnd (e.2.1 - 1))
    let r0 := packSeg 4 0 ((List.range 8).map packCourse) 1
    let r1 := packSeg 4 0 r0.2.1 r0.2.2
    let r2 := packSeg 4 0 r1.2.1 r1.2.2
    bits r0.1 = [(0, 9764), (1, 4765)] ∧ bits r1.1 = [(1, 4999), (2, 9550)] ∧
      bits r2.1 = [(2, 214), (3, 9764), (4, 4567)] := by decide +kernel

/-- 2-2 worked example: wrap 61 runs toward lower LPOS. -/
theorem test_seg_lpos : segLpos 61 (3373500 - 3089994) = 3089994 ∧ nextLpos 61 3090000 = 3089999 := by decide +kernel

/-- 7-2 worked example: the body of the bundle. -/
def thatchBody : List Byte :=
  [0x0A, 0x01, 0x82, 0x65, 0x94, 0x85, 0x49, 0x01, 0x44, 0x04, 0x6A] ++
  [0x66, 0xC6, 0x76, 0x6C, 0x28, 0xCA, 0x8D, 0x68, 0xD8, 0x8D, 0xE8] ++
  [0xE6, 0x80, 0x46, 0x13, 0xEE, 0xB4, 0x47, 0x64, 0x16, 0xAE, 0xEC]

/-- 7-2 worked example: "seal 5 ok; " five times, then "seal 6 ok;". -/
def thatchText : List Byte :=
  ((List.replicate 5 [0x73, 0x65, 0x61, 0x6C, 0x20, 0x35, 0x20, 0x6F, 0x6B, 0x3B, 0x20]).flatten : List Byte) ++
    [0x73, 0x65, 0x61, 0x6C, 0x20, 0x36, 0x20, 0x6F, 0x6B, 0x3B]

theorem test_thatch_decode :
    (match Thatch.bundle ⟨0, 0, []⟩ 0 [] ([0xB1, 0x00, 0x40, 0x00, 0x21, 0x00] ++ thatchBody) with
      | .ok r => decide (r.out = thatchText ∧ r.rep = 11)
      | .error _ => false) = true := by decide +kernel

/-- A coded body that is no shorter than its text is refused (R217). -/
theorem test_thatch_long_body :
    (match Thatch.bundle ⟨0, 0, []⟩ 0 [] ([0xB1, 0x00, 0x20, 0x00, 0x21, 0x00] ++ thatchBody) with
      | .ok _ => 0
      | .error e => e) = 1 := by decide +kernel

/-- 6-1 worked example: reader 59 on wrap 61 reads 46.875 nm, reported as 47. -/
theorem test_pes :
    let b : BattenIn := ⟨64, [], [], 0, 64, 20, 44, false⟩
    State.reset.battenPes b 5569 (targetTrack 61 59) 61 = 375 / 8 ∧ nearest (375 / 8) = 47 := by decide +kernel

/-- 8-2 worked example: handle and tile, with class 4 at tile 16,384. -/
theorem test_handle :
    mkHandle 4 37 0x2C = 0x8000252C ∧ hClass 0x8000252C = 4 ∧ hIndex 0x8000252C = 37 ∧ hGen 0x8000252C = 0x2C ∧
      (State.reset.setFld F.POOL_CLASS.BASE 16384 4).bufTile 0x8000252C + 0x31A40 / 4096 = 25905 := by decide +kernel

/-- 12 worked example: the entry in host memory. The phase bit of the last byte is put by the write of the entry. -/
theorem test_host_entry : (entryBytes 0x366666 0 0x0129 0 0).take 10 =
    [0x66, 0x66, 0x36, 0x00, 0, 0, 0, 0, 0x29, 0x01] := by decide +kernel

/-- 14 worked example, steps 4 and 6: sums of slices over GF(256). -/
theorem test_team_sums :
    gfMul (gfPow 1) 0x02 = 0x04 ∧ gfMul (gfPow 2) 0x40 = 0x1D ∧ gfMul (gfPow 4) 0x03 = 0x30 ∧ gfMul (gfPow 5) 0x80 = 0xCD := by
  decide +kernel

/-- The image buffer of the transactional registers, class 4 at tile 16,384, with these words in it. -/
def imaged (s : State) (l : List (Nat × Nat)) : State :=
  let s := (((s.setFld F.POOL_CLASS.EN 1 4).setFld F.POOL_COUNT.COUNT 1 4).setFld F.POOL_CLASS.BASE 16384 4).setFld
    F.CORE_TXR_BASE.HANDLE 0x80000000
  let s := s.setBuf 4 0 { owner := 1 }
  s.each l fun s e => (s.memStore (4096 * 16384 + 8 * e.1) (leBytes 8 e.2)).setTileRec (16384 + 8 * e.1 / 4096) { fill := 4096 }

/-- A team of layout 4 with K = 6, in slot 0. -/
def teamState : State := imaged State.reset [(0x10000, 4 * 2 ^ 48 + 6 * 2 ^ 51 + 2 ^ 56 + 60 * 2 ^ 57)]

/-- 14 worked example, step 7: D4 from A and B with members 1 and 4 missing. -/
theorem test_team_solve : teamState.solve 0 4 [1, 4] [0x01] [0x34] = some [0x03] := by decide +kernel

/-- 14 worked example, the shape of the team. -/
theorem test_team_shape : teamState.teamLayout 0 = 4 ∧ teamState.teamK 0 = 6 ∧ teamState.teamN 0 = 60 ∧
    teamState.teamRidge 0 = true ∧ teamState.memberCount 0 = 8 ∧ teamState.unitLen 0 = 13762560 := by decide +kernel

/-- 16 worked example: the start that its journal mirror names. -/
theorem test_boot_hung :
    hung (leBytes 6 0 ++ leBytes 2 0x00FF ++ leBytes 2 0x003F ++ leBytes 2 0 ++ leBytes 52 0) = 0xC0 := by decide +kernel

/-! ## Ill-formed commands, one for each check -/

/-- A ring frame of a given header and payload length. -/
def frame (h p : Nat) : RingFrame :=
  { link := 0, header := List.replicate h 0, payload := List.replicate p 0, crc := 0, stomped := false }

/-- A work item of zero bytes: 64, or another number. -/
def work (n : Nat) : WorkItem := { fn := 0, pair := 0, bytes := List.replicate n 0 }

/-- A search that found one course, with nothing else on the cartridge. -/
def found (c : FoundCourse) : TapeFind := ⟨[], [], [c], [], [], none, none⟩

theorem test_wf_bar : Instr.wf (.registerWrite 0 5 0 4 0 0) = false ∧ Instr.wf (.registerWrite 0 6 0 4 0 0) = true ∧
    Instr.wf (.registerReadClear 0 1 0 4 0) = false ∧ Instr.wf (.registerReadClear 0 0 0 0 0) = false ∧
    Instr.wf (.registerReadClear 0 0 0 4 0) = true := by decide +kernel

theorem test_wf_length : Instr.wf (.registerWrite 0 0 0 0 0 0) = false ∧ Instr.wf (.registerWrite 0 0 0 5 0 0) = false ∧
    Instr.wf (.registerWrite 0 0 0 1 0 0) = true := by decide +kernel

theorem test_wf_lpos : Instr.wf (.handoffChannelSwitch 0 3380000) = false ∧ Instr.wf (.handoffChannelSwitch 0 3379999) = true := by
  decide +kernel

theorem test_wf_segment : Instr.wf (.resumeMarkSearch 0 3380000 []) = false ∧ Instr.wf (.resumeMarkSearch 0 6500 [1]) = true := by
  decide +kernel

theorem test_wf_yealm : Instr.wf (.yealmDecode (2 ^ 28)) = false ∧ Instr.wf (.c2Retry (2 ^ 28)) = false ∧
    Instr.wf (.yealmDecode (2 ^ 28 - 1)) = true := by decide +kernel

theorem test_wf_window : Instr.wf (.ldmWindowWrite 2 0) = false ∧ Instr.wf (.aonWindowWrite 1 0) = false ∧
    Instr.wf (.aonWindowWrite 4 0) = true := by decide +kernel

theorem test_wf_host_data (b : List Byte) (h : b.length = 16777217) : Instr.wf (.fetch 0 (.data [(b, false)])) = false := by
  simp [Instr.wf, hostReadOk, h]

theorem test_wf_batch : Instr.wf (.workBatchFetch 0 0 [[]]) = false ∧
    Instr.wf (.workBatchFetch 0 0 (List.replicate 65 (List.replicate 64 0))) = false ∧
    Instr.wf (.workBatchFetch 0 0 [List.replicate 64 0]) = true := by decide +kernel

theorem test_wf_bar2 : Instr.wf (.bar2Access 0 4 (some [0])) = false ∧ Instr.wf (.bar2Access 0 0 none) = false ∧
    Instr.wf (.bar2Access 0 1 (some [0])) = true := by decide +kernel

theorem test_wf_link : Instr.wf (.pcieLinkUp 6 8) = false ∧ Instr.wf (.pcieLinkUp 5 3) = false ∧ Instr.wf (.pcieLinkUp 5 8) = true ∧
    Instr.wf (.bootStepDone 4 { speed := 0, width := 1 }) = false := by decide +kernel

theorem test_wf_work : Instr.wf (.unload (work 63)) = false ∧ Instr.wf (.unload (work 64)) = true := by decide +kernel

theorem test_wf_tape :
    Instr.wf (.mount (work 64) (found ⟨64, 0, 6500, 0, 0, true, []⟩)) = false ∧
    Instr.wf (.mount (work 64) (found ⟨63, 368, 6500, 0, 0, true, []⟩)) = false ∧
    Instr.wf (.mount (work 64) (found ⟨63, 367, 6500, 14553, 0, true, []⟩)) = false ∧
    Instr.wf (.mount (work 64) (found ⟨63, 367, 6500, 14552, 0, true, []⟩)) = true := by decide +kernel

theorem test_wf_frame : Instr.wf (.ringFrameReceive .east (frame 23 0)) = false ∧
    Instr.wf (.ringFrameReceive .east (frame 24 2049)) = false ∧ Instr.wf (.ringFrameReceive .east (frame 24 2048)) = true := by
  decide +kernel

theorem test_wf_report : Instr.wf (.faultReportReceive (List.replicate 31 0)) = false ∧
    Instr.wf (.faultReportReceive (List.replicate 32 0)) = true := by decide +kernel

/-! ## States and operands that meet the hypotheses of the statements: stream cores -/

/-- Core 0 as given, every other part at reset. -/
def atCore (c : Core) : State := { cores := [(0, c)] }
/-- A core that runs at pc 0. -/
def live : Core := { run := .running, codeLen := 64 }
/-- A running core with a value in g1. -/
def live1 (v : W64) (m : Bool := false) : Core := { live with g := [(1, ⟨v, m⟩)] }
/-- A running core with values in g1 and g2. -/
def live2 (v w : W64) : Core := { live with g := [(1, ⟨v, false⟩), (2, ⟨w, false⟩)] }
/-- Class 0 of the pools enabled with four buffers, buffer 1 of the stream cores (handle 0x100) with 100 bytes of its tile filled,
buffers 2 and 3 free; the pools run. -/
def pools (s : State) : State :=
  (((({ s with bufs := [(1, { owner := 1 })], free := [(0, [2, 3])], tiles := [(1025, { fill := 100 })] }.setFld
    F.POOL_CLASS.EN 1 0).setFld F.POOL_COUNT.COUNT 4 0).setFld F.POOL_CLASS.BASE 1024 0).setFld F.POOL_CTL.RUN 1)
/-- Queue 0 enabled at depth 4. -/
def queue0 (s : State) : State := (s.setFld F.QUE_CFG.EN 1 0).setFld F.QUE_CFG.DEPTH 2 0

theorem runs_live : Runs (atCore live) 0 := by unfold Runs; decide +kernel

theorem witness_AluInstructions : Runs (atCore live) 0 ∧ aluRows.length = 17 ∧ (1 : Rf) ≠ 0 := ⟨runs_live, by decide, by decide⟩

theorem witness_ImmediateResults : Runs (atCore live) 0 ∧ immRows.length = 4 ∧ shiftRows.length = 4 ∧
    (63 : BitVec 14).toNat < 64 ∧ 64 ≤ (64 : BitVec 14).toNat := ⟨runs_live, by decide, by decide, by decide, by decide⟩

theorem witness_CompareFlags : Runs (atCore live) 0 := runs_live

theorem witness_WideAndAssistResults : Runs (atCore live) 0 ∧ (15 : Rf).toNat < 16 ∧ wideRows.length = 7 :=
  ⟨runs_live, by decide, by decide⟩

/-- The words of the worked example of 09_laruf_isa.md, and NOP of R306. -/
theorem test_laruf_words :
    [0x18C03FFF, 0x14C64020, 0x00E60000, 0x51000004, 0x29256000, 0x30E74803, 0x04A50008, 0x2945_4001, 0x0007500B, 0x4C200003,
      0x7C000000].map (larufDecode 2) =
    [some (.movi 2 6 0 0x3FFF), some (.shri 2 6 6 32), some (.add 2 7 6 0), some (.loop 2 8 false 4), some (.ldt 2 9 5 3 0),
      some (.crc32c 2 7 7 9 3), some (.addi 2 5 5 0 8), some (.ldt 2 10 5 2 1), some (.cmp 2 0 7 10), some (.bc 2 1 false 3),
      some (.nop 2 0 0 0)] := by decide

theorem witness_LarufWordsRoundTrip :
    larufEncode (.loop 0 8 false 4) = some (0, 0x51000004) ∧ ((0xFFFFFFFF : W32).extractLsb' 26 6).toNat = 63 ∧
    ((0x3C000000 : W32).extractLsb' 26 6).toNat = 0x0F ∧
    (∃ s : State, s = atCore { live with im := [(0, 4), (3, 0x51)] } ∧ s.larufAt 0 = some (.loop 0 8 false 4) ∧
      ∀ k, k < 4 → (s.core 0).im.get (fun _ => 0) ((s.core 0).pc + k) = (0x51000004 : W32).extractLsb' (8 * k) 8) := by
  refine ⟨by decide, by decide, by decide, _, rfl, ?_, ?_⟩ <;> decide +kernel

theorem witness_BranchesAndLoops :
    (Runs (atCore (live1 4)) 0 ∧ ((atCore (live1 4)).core 0).gm 1 = false ∧ (((atCore (live1 4)).core 0).gv 1).toNat % 4 = 0) ∧
    (Runs (atCore (live1 3)) 0 ∧ (((atCore (live1 3)).core 0).gv 1).toNat % 4 ≠ 0) ∧
    (Runs (atCore (live1 0 true)) 0 ∧ ((atCore (live1 0 true)).core 0).gm 1 = true) ∧
    (0 < (1 : BitVec 20).toInt ∧ (2 : BitVec 20).toNat ≠ 1 ∧ ((atCore (live1 4)).core 0).loops.length < 4) ∧
    (∃ c : Core, c = { live1 1 with loops := List.replicate 4 ⟨0, 8, 2⟩ } ∧ Runs (atCore c) 0 ∧ 4 ≤ c.loops.length) := by
  refine ⟨?_, ?_, ?_, by decide, _, rfl, ?_⟩ <;> unfold Runs <;> decide +kernel

theorem witness_LoopForms :
    let e : LoopEntry := ⟨4, 12, 2⟩
    let last : LoopEntry := ⟨4, 12, 1⟩
    let at8 (l : List LoopEntry) : Core := { live with pc := 8, loops := l }
    ((at8 [e]).pc + 4 = e.stop ∧ 1 < e.count) ∧ ((at8 [last]).pc + 4 = last.stop ∧ last.count = 1) ∧
    ({ at8 [e] with pc := 4 } : Core).pc + 4 ≠ e.stop ∧ (e.start ≤ 11 ∧ 11 < e.stop) ∧ ¬(e.start ≤ 12 ∧ 12 < e.stop) ∧
    live.loops = [] := by decide

theorem witness_BranchConditions : Runs (atCore live) 0 ∧ ((atCore live).core 0).fm = false ∧ (11 : Rf).toNat < 12 ∧
    (9 : Rf).toNat < 10 ∧ 12 ≤ (12 : Rf).toNat ∧ Runs (atCore { live with fm := true }) 0 ∧
    ((atCore { live with fm := true }).core 0).fm = true := by unfold Runs; decide +kernel

theorem witness_ExceptionEntry :
    (∃ c : Core, c = { live with handler := some 8, depth := 1, staged := [.tset 0 1] } ∧ (atCore c).canonical = true ∧
      ((atCore c).core 0).run = .running ∧ c.fh = false ∧ c.depth ≠ 0) ∧
    ((atCore { live with handler := some 8, fh := true }).canonical = true) ∧ live.handler = none :=
  ⟨⟨_, rfl, by decide +kernel⟩, by decide +kernel, rfl⟩

theorem witness_IllegalForms : Runs (atCore live) 0 ∧ 15 < (16 : Rf).toNat ∧ (1 : Rf) ≠ 0 ∧ (1 : BitVec 2) ≠ 0 ∧
    ((atCore { live with pc := 64 }).core 0).codeLen ≤ ((atCore { live with pc := 64 }).core 0).pc ∧
    ((atCore { live with run := .halted }).core 0).run ≠ .running := by unfold Runs; decide +kernel

theorem witness_LocalMemory :
    let at' (v : W64) := (atCore (live1 v)).core 0
    (Runs (atCore (live1 65532)) 0 ∧ Runs (atCore (live1 2)) 0) ∧ ((3 : BitVec 3) = 4 → (31 : Rf).toNat < 16) ∧
    (((at' 65528).gv 1).toNat + (0 : BitVec 13).toInt * 8 + 8 ≤ 65536) ∧ 65536 < ((at' 65532).gv 1).toNat + 0 * 8 + 8 ∧
    (((at' 2).gv 1).toNat + (0 : BitVec 13).toInt * 4) % 4 ≠ 0 ∧ ((at' 0).gv 1).toNat + (-1 : BitVec 13).toInt * 8 < 0 ∧
    5 ≤ (5 : BitVec 3).toNat := by unfold Runs; decide +kernel

theorem witness_TileMemory :
    let s := pools (atCore (live1 0x10000000FF8))
    (Runs s 0 ∧ (s.core 0).gm 1 = false) ∧ s.checkUse 0x100 4088 8 8 (some 1) = none ∧ s.isImage 0x100 = false ∧
    s.checkUse 0x100 4096 8 8 (some 1) = some 0x0011 ∧ s.checkUse 0x100 4 8 8 (some 1) = some 0x0010 ∧
    s.checkUse 0x100 0 8 8 (some 0x10) = some 0x0012 := by unfold Runs; decide +kernel

theorem witness_TileReturns :
    let s := pools (atCore { live with stall := .load 3 8 false false 0x100 0 })
    let p := (s.setTileRec 1025 { fill := 100, poison := true }).setFld F.TIL_CTL.BUSERR_MODE 1
    ((s.core 0).run = .running ∧ (s.core 0).stall = .load 3 8 false false 0x100 0 ∧ (s.bufRead 0x100 0 8).2.2 = false) ∧
    ((p.bufRead 0x100 0 8).2.2 = true ∧ (p.bufRead 0x100 0 8).1.flag F.TIL_CTL.BUSERR_MODE = true) := by decide +kernel

theorem witness_QueueInstructions :
    let s := queue0 (atCore (live1 0))
    let one (n : Nat) : State := { s with queues := [(0, ⟨n, 0, n, 0, false⟩)] }
    (Runs s 0 ∧ (s.core 0).gm 1 = false ∧ (s.core 0).wm 2 = false ∧ (s.core 0).depth = 0) ∧ s.flag F.QUE_CFG.EN 0 = true ∧
    (s.qCount 0 < s.qDepth 0 ∧ s.qCount 0 = 0) ∧
    (Runs (one 4) 0 ∧ (one 4).qDepth 0 ≤ (one 4).qCount 0 ∧ ((one 4).queue 0).wp = ((one 4).queue 0).wp2) ∧
    ((one 1).canonical = true ∧ (one 1).qCount 0 ≠ 0) ∧ s.flag F.QUE_CFG.EN 1 = false ∧
    511 < (((atCore (live1 512)).core 0).gv 1).toNat := by unfold Runs; decide +kernel

/-- Class 0 without a free buffer, its NEXT class 1, which has one. -/
def nextClass : State := ({ pools (atCore (live1 0)) with free := [(1, [5])] }).setFld F.POOL_CLASS.NEXT 1 0

theorem witness_BallocForms :
    let s := pools (atCore (live1 0))
    let e := { s with free := [] }
    (Runs s 0 ∧ (s.core 0).gm 1 = false ∧ s.flag F.POOL_CTL.RUN = true ∧ s.freeList 0 = [2, 3]) ∧
    (Runs nextClass 0 ∧ nextClass.flag F.POOL_CTL.RUN = true ∧ nextClass.freeList 0 = [] ∧ nextClass.fld F.POOL_CLASS.NEXT 0 = 1 ∧
      nextClass.freeList 1 = [5]) ∧
    (Runs (atCore (live1 7)) 0 ∧ (((atCore (live1 7)).core 0).gv 1).toNat < 8 ∧ (atCore (live1 7)).flag F.POOL_CTL.RUN = false) ∧
    (Runs e 0 ∧ e.flag F.POOL_CTL.RUN = true ∧ e.freeList 0 = [] ∧ 8 ≤ e.fld F.POOL_CLASS.NEXT 0) ∧
    (Runs (atCore (live1 8)) 0 ∧ 7 < (((atCore (live1 8)).core 0).gv 1).toNat) := by unfold Runs; decide +kernel

theorem witness_BfreeForms :
    let f (k : Nat) (a : Bool) (v : W64) := pools (atCore { live1 v with depth := k, aborted := a })
    let other := (f 0 false 0x100).setBufOf 0x100 { owner := 0x10 }
    (Runs (f 0 false 0x100) 0 ∧ ((f 0 false 0x100).core 0).gm 1 = false ∧ (f 0 false 0x100).handleInClass 0x100 = true ∧
      (f 0 false 0x100).handleLive 0x100 = true ∧ ((f 0 false 0x100).bufOf 0x100).owner = 1) ∧
    (Runs (f 1 false 0x100) 0 ∧ Runs (f 1 true 0x100) 0 ∧ Runs (f 1 false 0x400) 0 ∧ Runs other 0) ∧
    (f 1 false 0x400).handleInClass 0x400 = false ∧
    ((f 0 false 0x101).handleInClass 0x101 = true ∧ (f 0 false 0x101).handleLive 0x101 = false) ∧
    (other.handleLive 0x100 = true ∧ (other.bufOf 0x100).owner ≠ 1) := by unfold Runs; decide +kernel

/-- A running core that may issue to every engine, with an ENCRYPT of no bytes at LDM 0. -/
def issuer : Core := { live1 0 with engineMask := 0x1FF, ldm := [(0, 1)] }
/-- That descriptor. -/
def issued : List Byte := 1 :: List.replicate 31 0
/-- Queue 0 enabled and CIP running, with `k` commands of core 0 waiting there. -/
def issuing (k : Nat) (c : Core) : State :=
  { (queue0 (atCore c)).setFld F.CIP_CTL.RUN 1 with
    accepted := if k = 0 then [] else [(1, List.replicate k { core := 0, target := 1, cq := 0, seq := 1, desc := issued })] }
/-- Core 0 is about to issue the descriptor at LDM 0 to CIP, its completion to queue 0. -/
def Issuing (s : State) : Prop :=
  Runs s 0 ∧ (s.core 0).gm 1 = false ∧ (s.core 0).engineMask.getLsbD 1 = true ∧ ((s.core 0).gv 1).toNat ≤ 65535 ∧
    ((s.core 0).gv 1).toNat % 32 = 0 ∧ (s.core 0).ldmMarked 0 32 = false ∧ s.flag F.QUE_CFG.EN 0 = true ∧
    (s.core 0).ldmBytes 0 32 = issued

theorem witness_IssueForms :
    (Issuing (issuing 0 issuer) ∧ (issuing 0 issuer).roomFor 0 1 issued = true ∧ Issuing (issuing 4 issuer) ∧
      (issuing 4 issuer).roomFor 0 1 issued = false) ∧
    (Issuing (issuing 0 { issuer with depth := 1 }) ∧ Runs (issuing 0 { issuer with depth := 1, aborted := true }) 0) ∧
    (Runs (issuing 0 { issuer with g := [(1, ⟨0, true⟩)] }) 0 ∧ Runs (issuing 0 { issuer with g := [(1, ⟨65536, false⟩)] }) 0 ∧
      Runs (issuing 0 { issuer with g := [(1, ⟨31, false⟩)] }) 0) ∧
    ((1 : BitVec 2).toNat < 2 ∧ 1 < (2 : BitVec 2).toNat ∧ 8 < (9 : Rf).toNat ∧ live.engineMask.getLsbD 0 = false ∧
      (atCore issuer).flag F.QUE_CFG.EN 0 = false) := by
  unfold Issuing Runs; refine ⟨?_, ?_, ?_, ?_⟩ <;> decide +kernel

theorem witness_IssueAccepts :
    let s (k : Nat) := issuing k { issuer with stall := .issue 3 1 issued 0 }
    ((s 0).canonical = true ∧ ((s 0).core 0).run = .running ∧ ((s 0).core 0).stall = .issue 3 1 issued 0 ∧
      (s 0).roomFor 0 1 issued = true) ∧
    ((s 4).canonical = true ∧ (s 4).roomFor 0 1 issued = false) := by decide +kernel

theorem witness_Acceptance :
    let d := patch (patch (patch (List.replicate 32 (0 : Byte)) 0 (leBytes 1 3)) 8 (leBytes 8 0x10000000000)) 24 (leBytes 4 64)
    let s := pools State.reset
    let other := s.setBufOf 0x100 { owner := 0x10 }
    (s.canonical = true ∧ descOk 8 d = true ∧ s.engineOn 8 = true ∧ namedBuffers 8 d = [0x100] ∧
      s.handleInClass 0x100 = true ∧ s.handleLive 0x100 = true ∧ (s.bufOf 0x100).owner = 1) ∧
    ((other.bufOf 0x100).owner ≠ 1 ∧ other.handleLive 0x100 = true) := by decide +kernel

theorem witness_WaitAndEvents :
    let ev : Core := { live1 5 with evm := 0x200, evEdge := 0x200 }
    (Runs (atCore ev) 0 ∧ (atCore ev).evp ((atCore ev).core 0) &&& ((atCore ev).core 0).evm ≠ 0) ∧
    (Runs (atCore (live1 5)) 0 ∧ (atCore (live1 5)).evp ((atCore (live1 5)).core 0) &&& ((atCore (live1 5)).core 0).evm = 0 ∧
      ((atCore (live1 5)).core 0).gv 1 ≠ 0) ∧
    ((atCore { live with stall := .wait 3 false }).core 0).stall = .wait 3 false ∧
    ((atCore { live with stall := .wait 3 true }).core 0).stall = .wait 3 true ∧
    (atCore { ev with stall := .wait 3 true }).canonical = true ∧ ((atCore { live with timer := 1 }).core 0).timer ≠ 0 := by
  unfold Runs; decide +kernel

theorem witness_SystemInstructions :
    (Runs (atCore (live1 4)) 0 ∧ ((atCore (live1 4)).core 0).stopReq = false ∧ ((atCore (live1 4)).core 0).gm 1 = false ∧
      ((atCore (live1 4)).core 0).fh = false ∧ (2 : BitVec 14).toNat ≤ 2 ∧ 16 < (17 : Rf).toNat) ∧
    (Runs (atCore { live with stopReq := true }) 0 ∧ ((atCore { live with stopReq := true }).core 0).stopReq = true) ∧
    (Runs (atCore { live1 4 with fh := true }) 0 ∧ ((atCore { live1 4 with fh := true }).core 0).fh = true ∧
      (((atCore { live1 4 with fh := true }).core 0).gv 1).toNat % 4 = 0) := by unfold Runs; decide +kernel

/-- The pool class of the transactional image enabled, its region strong, and a buffer of it named in CORE_TXR_BASE. -/
def image (s : State) : State :=
  ((((({ s with bufs := [(4 * 2 ^ 21, { owner := 1 })] }.setFld F.POOL_CLASS.EN 1 4).setFld F.POOL_COUNT.COUNT 1 4).setFld
    F.POOL_CLASS.BASE 16384 4).setFld F.CORE_TXR_BASE.HANDLE 0x80000000).setFld F.CORE_CFG.GRACE 5)

theorem witness_TransactionEffects :
    let tx (k : Nat) (l : List Staged) : Core := { live2 3 9 with depth := k, staged := l }
    let full := List.replicate 64 (Staged.tset 0 0)
    (Runs (atCore (live2 3 9)) 0 ∧ ((atCore (live2 3 9)).core 0).depth = 0) ∧
    (Runs (atCore (tx 62 [])) 0 ∧ Runs (atCore (tx 63 [])) 0) ∧
    (Runs (atCore (tx 1 [])) 0 ∧ ((atCore (tx 1 [])).core 0).gm 1 = false ∧ ((atCore (tx 1 [])).core 0).gm 2 = false ∧
      txrValid 3 = true ∧ txrValid 4 = true ∧ txrValid 5 = false ∧ ((atCore (tx 1 [])).core 0).aborted = false) ∧
    (Runs (atCore (tx 1 full)) 0 ∧ 64 ≤ ((atCore (tx 1 full)).core 0).staged.length) ∧
    (Runs (atCore { tx 1 [] with aborted := true }) 0 ∧ ((atCore { tx 1 [] with aborted := true }).core 0).aborted = true) := by
  unfold Runs; decide +kernel

theorem witness_TransactionEnds :
    let c : Core := { live with depth := 1, staged := [.tset 3 9] }
    let s := image (atCore c)
    let w := image (atCore { c with stall := .commit 1 })
    let o := image (atCore { c with overlap := true })
    (Runs s 0 ∧ s.imageOk = true ∧ (s.core 0).overlap = false ∧ (s.core 0).staged = [.tset 3 9]) ∧
    (w.canonical = true ∧ w.imageOk = true ∧ (w.core 0).stall = .commit 1 ∧ (w.core 0).depth = 1) ∧
    (Runs o 0 ∧ o.imageOk = true ∧ (o.core 0).overlap = true) := by unfold Runs; decide +kernel

theorem witness_CoreStartStop :
    let r := atCore { imgOk := true, entry := 16 }
    let g := image (atCore { live with stopReq := true })
    (r.canonical = true ∧ (r.core 0).run ≠ .running ∧ (r.core 0).imgOk = true ∧ r.flag F.CORE_LOAD_STAT.BUSY = false) ∧
    (State.reset.canonical = true ∧ (State.reset.core 0).run ≠ .running ∧ (State.reset.core 0).imgOk = false) ∧
    (g.canonical = true ∧ (g.core 0).run = .running ∧ g.fld F.CORE_CFG.GRACE ≠ 0 ∧ (g.core 0).stopReq = true ∧
      (g.core 0).run ≠ .stopped) ∧
    (let w := atCore { live with stopReq := true, stall := .load 3 8 false false 0x100 0 };
      w.canonical = true ∧ (w.core 0).run = .running ∧ (w.core 0).stopReq = true ∧
        (w.core 0).stall = .load 3 8 false false 0x100 0) := by decide +kernel

/-- A load of core 3 named from handle 0x100, of 1,416 bytes that hold a header and lengths in order. -/
def loading : State :=
  ((((pools { mem := [(4198400, 0x4C), (4198401, 0x52), (4198402, 0x55), (4198403, 0x46), (4198404, 1), (4198432, 4), (4198533, 5)] }).setFld
    F.CORE_LOAD_H.HANDLE 0x100).setFld F.CORE_LOAD_L.LENGTH 1416).setFld F.CORE_LOAD_CTL.TARGETS 8).setTileRec 1025 { fill := 1416 }

theorem witness_ProgramLoading :
    let b := loading.setFld F.CORE_LOAD_STAT.BUSY 1
    (loading.canonical = true ∧ loading.flag F.CORE_LOAD_STAT.BUSY = false ∧ loading.checkRange 0x100 0 1416 = none ∧
      loading.fld F.CORE_LOAD_CTL.TARGETS % 2 ^ 16 ≠ 0 ∧ ∀ k, k < 16 → (loading.core k).run = .stopped) ∧
    (b.canonical = true ∧ b.flag F.CORE_LOAD_STAT.BUSY = true ∧ BitVec.ofNat 32 (b.fld F.CORE_LOAD_H.HANDLE) = 0x100 ∧
      b.fld F.CORE_LOAD_L.LENGTH = 1416 ∧ (b.bufRead 0x100 0 1416).2.2 = false ∧
      imgHeaderOk (b.bufRead 0x100 0 1416).2.1 = true ∧ imgLengthsOk (b.bufRead 0x100 0 1416).2.1 = true) ∧
    (State.reset.flag F.CORE_WSEL.SPACE = false ∧ (State.reset.core (State.reset.fld F.CORE_WSEL.CORE)).run ≠ .running ∧
      (0xFFFC : BitVec 16).toNat % 4 = 0) := by decide +kernel

/-! ## The same: engine commands -/

/-- A command of core 0, accepted as number 1, whose completion goes to queue 0. -/
def command (target code arg : Nat) (a b : W64) (c d : Nat) : Cmd :=
  { core := 0, target := target, cq := 0, seq := 1
    desc := leBytes 1 code ++ [0] ++ leBytes 2 arg ++ leBytes 4 7 ++ leBytes 8 a.toNat ++ leBytes 8 b.toNat ++ leBytes 4 c ++ leBytes 4 d }
/-- A state in which one command waits at its engine. -/
def queued (s : State) (c : Cmd) : State := { s with accepted := [(c.target, [c])] }
/-- Class 0 with buffers 1 and 2 (handles 0x100 and 0x200) of one owner, 4,096 bytes of each filled. -/
def owned (o : Nat) : State :=
  ((({ bufs := [(1, { owner := o }), (2, { owner := o })], tiles := [(1025, { fill := 4096 }), (1026, { fill := 4096 })] } : State).setFld
    F.POOL_CLASS.EN 1 0).setFld F.POOL_COUNT.COUNT 4 0).setFld F.POOL_CLASS.BASE 1024 0
/-- The tile addresses of their first bytes. -/
def buf1 : W64 := 0x10000000000
def buf2 : W64 := 0x20000000000

theorem witness_TileCommands :
    let c (code n : Nat) := command 8 code 0 buf1 buf2 n 0
    let s (code n : Nat) := queued (owned Owner.til) (c code n)
    let f := command 8 2 0xAB buf1 0 4096 0
    (Starts (s 1 4096) 8 0 1 (c 1 4096) ∧ (s 1 4096).engCheck (c 1 4096) buf1 4096 = none ∧
      (s 1 4096).engCheckW (c 1 4096) buf2 4096 = none ∧ Quiet (((s 1 4096).start (c 1 4096)).taRead buf1 4096).1 buf2 4096 ∧
      (((s 1 4096).start (c 1 4096)).taRead buf1 4096).2.2 = false) ∧
    (Starts (s 1 0) 8 0 1 (c 1 0) ∧ Starts (s 3 0) 8 0 3 (c 3 0)) ∧
    (Starts (s 1 4097) 8 0 1 (c 1 4097) ∧ (s 1 4097).engCheck (c 1 4097) buf1 4097 = some 0x0011) ∧
    (Starts (queued (owned Owner.til) f) 8 0 2 f ∧ (queued (owned Owner.til) f).engCheckW f buf1 4096 = none ∧ Quiet (queued (owned Owner.til) f) buf1 4096) ∧
    (Starts (s 3 4096) 8 0 3 (c 3 4096) ∧ (s 3 4096).engCheck (c 3 4096) buf1 4096 = none) ∧
    (let p := (s 3 4).setTileRec 1025 { fill := 4096, poison := true };
      Starts p 8 0 3 (c 3 4) ∧ ((p.start (c 3 4)).taRead buf1 4).2.2 = true) := by
  unfold Starts Quiet; refine ⟨?_, ?_, ?_, ?_, ?_, ?_⟩ <;> decide +kernel

theorem witness_CommandsThatDoNotRun :
    let c : Cmd := { command 8 1 0 buf1 buf2 4 0 with badOwner := true }
    ((queued State.reset c).cmds 8)[0]? = some c ∧ (queued State.reset c).fenceOpen c = true ∧ dCode c.desc = 1 ∧
      (queued State.reset c).clocked = true ∧ (State.reset.cmds 8)[0]? = none ∧ dCode (command 8 3 0 0 0 0 0).desc ≠ 1 ∧
      ((queued State.reset c).setFld F.PWR_STAT.STATE 3).clocked = false := by decide +kernel

/-- CIP with a message of core 0 on slot 12, whose key is AES-128 for both directions, and buffers 1 and 2 taken by it. -/
def cip (held : Bool) : State :=
  let s := (({ owned 0x11 with keys := [(12, { valid := true, key := 5, enc := true, dec := true, tkid := 9 })] }.setFld F.CIP_CTL.RUN 1).setFld
    F.CIP_LOCK.SLOT 12).setFld F.CIP_CTL.LOCK_IDLE 5
  if held then s.setFld F.CIP_LOCK.HELD 1 else s

theorem witness_CipherCommands :
    let c (code n : Nat) := command 1 code 12 buf1 buf2 n 0
    let s (held : Bool) (code n : Nat) := queued (cip held) (c code n)
    (∀ code ∈ [1, 2], Starts (s true code 256) 1 0 code (c code 256) ∧ (s true code 256).cipHead (c code 256) = true ∧
      (s true code 256).cipCheck (c code 256) = none ∧ (s true code 256).cipTurn (c code 256) = true ∧
      Quiet (((s true code 256).start (c code 256)).taRead buf1 4096).1 buf2 4096 ∧
      (((s true code 256).start (c code 256)).taRead buf1 4096).2.2 = false) ∧
    ((s false 1 1).cipCheck (c 1 1) = none ∧ (s false 1 1).cipTurn (c 1 1) = false) ∧
    ((s true 1 257).cipCheck (c 1 257) = some 0x0011) ∧
    (Starts (s true 2 0) 1 0 2 (c 2 0) ∧ (s true 2 0).cipHead (c 2 0) = true) ∧
    (Starts (s true 1 0) 1 0 1 (c 1 0) ∧ (s true 1 0).lockHeld = true ∧ (s true 1 0).holder = 0 ∧
      (s true 1 0).earlierOpen (c 1 0) = false) ∧
    (Starts (s false 1 0) 1 0 1 (c 1 0) ∧ (s false 1 0).lockHeld = false) := by
  unfold Starts Quiet; decide +kernel

theorem witness_CipLockRules :
    let c := command 1 1 12 buf1 buf2 1 0
    (let s := queued (cip false) c;
      s.canonical = true ∧ (∀ x ∈ s.cmds 1, x.target = 1) ∧ s.lockHeld = false ∧ s.cipWaiting false = [c]) ∧
    ((cip true).canonical = true ∧ (cip true).lockHeld = true ∧ (cip true).fld F.CIP_CTL.LOCK_IDLE ≠ 0 ∧
      (∀ x ∈ (cip true).cmds 1, x.core ≠ (cip true).holder)) ∧
    (State.reset.setFld F.CIP_CTL.LOCK_IDLE 0).fld F.CIP_CTL.LOCK_IDLE = 0 := by decide +kernel

/-- RFC 3394, 4.1: 128 bits of key data wrapped with a 128-bit key. -/
theorem test_key_unwrap :
    Aes.unwrap ((List.range 16).map fun k => BitVec.ofNat 8 k)
      ([0x1F, 0xA6, 0x8B, 0x0A, 0x81, 0x12, 0xB4, 0x47, 0xAE, 0xF3, 0x4B, 0xD8] ++
       [0xFB, 0x5A, 0x7B, 0x82, 0x9D, 0x3E, 0x86, 0x23, 0x71, 0xD2, 0xCF, 0xE5]) =
    some ((List.range 16).map fun k => BitVec.ofNat 8 (17 * k)) := by decide +kernel

/-- FIPS 197, C.1. -/
theorem test_aes128 :
    Aes.encrypt ((List.range 16).map fun k => BitVec.ofNat 8 k) ((List.range 16).map fun k => BitVec.ofNat 8 (17 * k)) =
      [0x69, 0xC4, 0xE0, 0xD8, 0x6A, 0x7B, 0x04, 0x30, 0xD8, 0xCD, 0xB7, 0x80, 0x70, 0xB4, 0xC5, 0x5A] := by decide +kernel

/-- SP 800-38D, validation case 14: GCM of one zero block under the zero key. -/
theorem test_gcm :
    let ct : List Byte := [0xCE, 0xA7, 0x40, 0x3D, 0x4D, 0x60, 0x6B, 0x6E, 0x07, 0x4E, 0xC5, 0xD3, 0xBA, 0xF3, 0x9D, 0x18]
    gcmStream (List.replicate 32 0) (List.replicate 12 0) 16 = ct ∧ gcmTag (List.replicate 32 0) (List.replicate 12 0) [] ct =
      [0xD0, 0xD1, 0xC8, 0xA7, 0x99, 0x99, 0x6B, 0xF0, 0x26, 0x5B, 0x98, 0xB5, 0xD4, 0x8A, 0xB9, 0x19] := by decide +kernel

/-- FIPS 202: SHAKE256 of no bytes. -/
theorem test_shake256 : shake256 [] 8 = [0x46, 0xB9, 0xDD, 0x2B, 0x0B, 0xA8, 0x8D, 0x13] := by decide +kernel

/-- A key for slot 12 (id 9, AES-128, both directions) wrapped with the import key of `keys65`. -/
def wrapped : List Byte :=
  [208, 214, 97, 253, 150, 237, 196, 97, 86, 56, 22, 193, 249, 190, 148, 212, 119, 104, 145, 8] ++
  [129, 221, 141, 32, 240, 58, 129, 120, 206, 73, 10, 19, 146, 235, 72, 60, 187, 178, 90, 44]
/-- An import key in slot 65, the blob in buffer 1, and S3 done. -/
def keys65 : State :=
  ({ owned Owner.key with keys := [(65, { valid := true, key := 5 })] }.memStore 4198400 wrapped).setFld F.BOOT_STAT.DONE 8

/-- What the blob unwraps to. -/
def plainKey : List Byte := leBytes 8 9 ++ [0, 3] ++ leBytes 6 0 ++ (List.range 16).map fun k => BitVec.ofNat 8 (k + 1)

theorem witness_KeyImport :
    let c := command 7 1 12 buf1 0 40 0
    let s := queued keys65 c
    let r := (s.start c).taRead buf1 40
    Starts s 7 0 1 c ∧ s.engCheck c buf1 40 = none ∧ r.2.2 = false ∧ r.1.flag F.KEY_ALARM.ALARM = false ∧ (r.1.key 65).valid = true ∧
      r.1.slotHeld 12 = false ∧ r.2.1 = wrapped ∧ (r.1.key 65).bytes = leBytes 16 5 ∧ r.1.plainOk 12 plainKey = true := by
  unfold Starts; decide +kernel

/-- What the first case of IMPORT turns on besides. -/
theorem witness_unwrap : Aes.unwrap (leBytes 16 5) wrapped = some plainKey := by decide +kernel

/-- What the other case turns on besides. -/
theorem witness_unwrap_fails : Aes.unwrap (leBytes 16 5) (wrapped.set 39 0) = none := by decide +kernel

theorem witness_KeyStoreEffects :
    let e := command 7 2 65 0 0 0 0
    let bad := command 7 2 64 0 0 0 0
    let c := command 1 1 63 buf1 buf2 1 0
    let held := { queued State.reset (command 7 2 63 0 0 0 0) with accepted := [(1, [c]), (7, [command 7 2 63 0 0 0 0])] }
    let a := command 7 3 0 buf1 buf2 64 0
    let s := queued keys65 a
    (Starts (queued State.reset e) 7 0 2 e ∧ (queued State.reset e).slotHeld 65 = false) ∧
    (Starts held 7 0 2 (command 7 2 63 0 0 0 0) ∧ held.slotHeld 63 = true) ∧
    (Starts (queued State.reset bad) 7 0 2 bad ∧ dArg bad.desc % 128 = 64) ∧
    (Starts s 7 0 3 a ∧ s.engCheck a buf1 64 = none ∧ s.engCheckW a buf2 0 = none ∧ (s.fld F.BOOT_STAT.DONE).testBit 3 = true ∧
      ((s.start a).taRead buf1 64).2.2 = false) := by
  unfold Starts; decide +kernel

theorem witness_KeyAlarms :
    let on := State.reset.setFld F.KEY_CTL.TAMPER_EN 1
    let off := State.reset.setFld F.KEY_CTL.CLK_EN 0
    let again := on.setFld F.KEY_ALARM.ALARM 1
    (on.canonical = true ∧ (∀ c ∈ on.cmds 1, c.target = 1) ∧ on.flag (sourceEnable .tamper) = true ∧
      on.flag F.KEY_ALARM.ALARM = false) ∧
    (off.canonical = true ∧ off.flag (sourceEnable .clock) = false ∧ off.flag F.KEY_CTL.SECURE = false) ∧
    (again.canonical = true ∧ again.flag (sourceEnable .tamper) = true ∧ again.flag F.KEY_ALARM.ALARM = true) := by decide +kernel

/-- A lane with the context of slot 5 loaded, in a role. -/
def laneOf (l : Nat) (decomp : Bool) (s : State) : State :=
  { s with lanes := [(l, { loaded := some 5, ctx := { init := true, decomp := decomp, window := 0x60000000 } })] }

theorem witness_Compress :
    let c : Cmd := { command 0 1 5 buf1 buf2 65 70 with lane := some 0 }
    let s := queued (laneOf 0 false ((owned 0x10).memStore 4198400 thatchText)) c
    let x := (s.start c).bundleCtx c 0 false
    let y := x.1.taRead buf1 65
    (s.canonical = true ∧ s.laneReady 0 1 = some c ∧ s.engCheck c buf1 65 = none ∧ s.engCheckW c buf2 70 = none ∧ x.2 = none) ∧
    (y.2 = (thatchText, false) ∧ (y.1.lane 0).ctx.poisoned = false ∧ y.1.canonical = true ∧
      (match Thatch.body 65 (y.1.lane 0).ctx.view (y.1.lane 0).ctx.rep thatchBody with
        | .ok r => decide (r.out = thatchText)
        | .error _ => false) = true ∧
      100 * thatchBody.length < (100 - Min.min (y.1.fld F.CMP_CTL.GAIN_PCT) 50) * 65 ∧ Quiet y.1 buf2 39) := by
  unfold Quiet; decide +kernel

theorem witness_Decompress :
    let c : Cmd := { command 0 2 5 buf1 buf2 39 65 with lane := some 4 }
    let b := [0xB1, 0x00, 0x40, 0x00, 0x21, 0x00] ++ thatchBody
    let s := queued (laneOf 4 true ((owned 0x10).memStore 4198400 b)) c
    let r := (s.start c).taRead buf1 39
    let x := r.1.bundleCtx c 4 true
    (s.canonical = true ∧ s.laneReady 4 2 = some c ∧ s.engCheck c buf1 39 = none ∧ s.engCheckW c buf2 65 = none ∧
      r.2 = (b, false) ∧ Thatch.origLen b ≤ 65) ∧
    (x.2 = none ∧ (x.1.lane 4).ctx.poisoned = false ∧ x.1.canonical = true ∧ Quiet x.1 buf2 65) := by
  unfold Quiet; decide +kernel

theorem witness_ContextCommands :
    let w : Cmd := { command 0 3 5 0x6000000000000000 0 0 0 with lane := some 0 }
    let s := queued ((({ bufs := [(6291456, { owner := 1 })] } : State).setFld F.POOL_CLASS.EN 1 3).setFld F.POOL_COUNT.COUNT 1 3) w
    let bad : Cmd := { command 0 3 5 0 0 0 0 with lane := some 0 }
    let v : Cmd := { command 0 4 5 0 0 0 0 with lane := some 0 }
    (s.canonical = true ∧ s.laneReady 0 3 = some w ∧ hClass (BitVec.ofNat 32 (natAt w.desc 12 4)) = 3 ∧
      s.checkUse 0x60000000 0 262144 1 none = none) ∧
    ((queued State.reset bad).laneReady 0 3 = some bad ∧ hClass (BitVec.ofNat 32 (natAt bad.desc 12 4)) ≠ 3) ∧
    ((queued (laneOf 0 false State.reset) v).canonical = true ∧ (queued (laneOf 0 false State.reset) v).laneReady 0 4 = some v) := by
  decide +kernel

/-- The two ends of CTX_SAVE, and the one that CTX_INIT asks of the lane it takes over. -/
theorem witness_ContextSaves :
    let v : Cmd := { command 0 4 5 0 0 0 0 with lane := some 0 }
    let w : Cmd := { command 0 3 5 0x6000000000000000 0 0 0 with lane := some 0 }
    let bad := queued (laneOf 0 false State.reset) v
    let free := queued State.reset v
    let x := queued State.reset w
    (((bad.start v).saveLanes ((bad.start v).lanesHolding 5)).2).isSome = true ∧
    (free.canonical = true ∧ free.laneReady 0 4 = some v ∧ ((free.start v).saveLanes ((free.start v).lanesHolding 5)).2 = none) ∧
    ((x.start w).vacate 5 0).2 = none := by decide +kernel

theorem witness_RunControls :
    let base := (image State.reset).setFld F.CMP_CTX_BASE.HANDLE 0x80000000
    let q := ((State.reset.setFld F.QUE_CFG.DEPTH 12 3).setFld F.QUE_WM.HIGH 1 3)
    let sc := (({ owned 1 with tiles := [(1025, { fill := 4096 })] }.setFld F.TIL_REGION.STRONG 16 0).setFld F.TIL_CTL.SCRUB_EN 1)
    let none' := State.reset.setFld F.TIL_CTL.SCRUB_EN 1
    (base.canonical = true ∧ base.flag F.CMP_CTL.RUN = false ∧ base.ctxBaseOk = true) ∧ State.reset.ctxBaseOk = false ∧
    (State.reset.flag F.POOL_CTL.RUN = false ∧ State.reset.poolLegal = true ∧ (owned 0).poolLegal = true ∧
      (State.reset.setFld F.POOL_CLASS.EN 1 1).poolLegal = false ∧ (State.reset.setFld F.POOL_CLASS.EN 1 1).canonical = true) ∧
    ((∀ e ∈ State.reset.bufs, e.2.owner = 0) ∧ ∃ e ∈ (owned 1).bufs, e.2.owner ≠ 0) ∧
    (q.canonical = true ∧ q.flag F.QUE_CFG.EN 3 = false ∧ q.qLegal 3 = true ∧ State.reset.qLegal 3 = false) ∧
    (sc.canonical = true ∧ sc.flag F.TIL_CTL.SCRUB_EN = true ∧ sc.fld F.PWR_STAT.STATE ≤ 1 ∧ sc.nextScrub sc.scrubAt = some 1025 ∧
      (sc.verifyTile 1025).2 ≠ .uncorrectable) ∧
    (none'.canonical = true ∧ none'.nextScrub none'.scrubAt = none ∧ none'.nextScrub 256 = none ∧
      none'.flag F.TIL_CTL.SCRUB_EN = true ∧ none'.fld F.PWR_STAT.STATE ≤ 1) ∧
    ((State.reset.setFld F.TIL_CTL.SCRUB_EN 0).flag F.TIL_CTL.SCRUB_EN = false) := by decide +kernel

theorem witness_QueueEmptied :
    let q := ((State.reset.setFld F.QUE_CFG.DEPTH 12 3).setFld F.QUE_WM.HIGH 1 3)
    q.canonical = true ∧ q.queue 3 = {} ∧ q.flag F.QUE_CFG.EN 3 = false ∧ q.qLegal 3 = true := by decide +kernel

theorem witness_FullVerify :
    let one : TileRec := { fill := 4096, pDiff := 0x40, qDiff := gfMul (gfPow 4095) 0x40, crcDiff := crcLin 0x40 4095 }
    let s : State := { located := [(4096 * 1025 + 4095, true)], tiles := [(1025, one)] }
    let bad : State := { tiles := [(1025, { fill := 4096, recBad := true }), (1026, { fill := 4096, crcDiff := 1 })] }
    (State.reset.canonical = true ∧ (State.reset.tileRec 5).recBad = false ∧ State.reset.locatedIn 5 0 4096 = [] ∧
      (State.reset.tileRec 5).crcDiff = 0) ∧
    (s.canonical = true ∧ (s.tileRec 1025).recBad = false ∧ s.locatedIn 1025 0 4096 = [4095] ∧
      (s.tileRec 1025).qDiff = gfMul (gfPow 4095) (s.tileRec 1025).pDiff ∧
      (s.tileRec 1025).crcDiff = crcLin (s.tileRec 1025).pDiff 4095) ∧
    (bad.canonical = true ∧ (bad.tileRec 1025).recBad = true ∧ bad.locatedIn 1026 0 4096 = [] ∧ (bad.tileRec 1026).crcDiff ≠ 0) := by
  decide +kernel

theorem witness_CompletionPut :
    let h : Held := ⟨completionItem 8 1 false 0 0 0 7, { command 8 1 0 0 0 0 0 with taken := [0x100] }⟩
    let s : State := { queue0 (owned 0x10) with held := [h] }
    let off : State := { held := [h] }
    (s.canonical = true ∧ s.held[0]? = some h ∧ s.flag F.QUE_CFG.EN 0 = true ∧ s.qCount 0 < s.qDepth 0 ∧
      (s.queue 0).wp = (s.queue 0).wp2 ∧ (s.queue 0).rp = (s.queue 0).rp2) ∧
    (off.canonical = true ∧ off.flag F.QUE_CFG.EN 0 = false) := by decide +kernel

/-! ## The same: host port, registers, work items -/

/-- The host port up, with bus mastering, and pair 0 of function 0 enabled with 16 entries in each queue. -/
def hostUp (s : State) : State :=
  ((({ s with hst := { pcieUp := true, config := [(4, 6)] } }.setFld F.HST_QCFG.EN 1 0).setFld F.HST_QCFG.SQ_LOG 4 0).setFld
    F.HST_QCFG.CQ_LOG 4 0).setFld F.HST_CTL.RUN 1
/-- The same with the pointers of that pair. -/
def withPair (q : QPair) (s : State) : State := { s with hst := { s.hst with pairs := [(0, q)] } }

theorem witness_HostDma :
    let f := command 4 1 0 0 buf1 4096 0
    let d (arg crc : Nat) := command 4 2 arg 0 buf1 64 crc
    let s (c : Cmd) := queued (hostUp (owned 0x14)) c
    let r (c : Cmd) := ((s c).start c).taRead buf1 64
    (Starts (s f) 4 0 1 f ∧ (s f).fnActive 0 = true ∧ (s f).busMaster 0 = true ∧ (s f).engCheckW f buf1 4096 = none ∧
      Quiet (s f) buf1 4096) ∧
    (Starts (queued (owned 0x14) f) 4 0 1 f ∧ (queued (owned 0x14) f).fnActive 0 = false) ∧
    (Starts (s (d 0 0)) 4 0 2 (d 0 0) ∧ (s (d 0 0)).engCheck (d 0 0) buf1 64 = none ∧ ((s (d 0 0)).bufOf 0x100).provisional = false ∧
      (r (d 0 0)).2.2 = false) ∧
    (Starts (s (d 16 1)) 4 0 2 (d 16 1) ∧ (crc32c (r (d 16 1)).2.1).toNat ≠ 1) ∧
    (let p := (s (d 0 0)).setBufOf 0x100 { owner := 0x14, provisional := true };
      Starts p 4 0 2 (d 0 0) ∧ p.engCheck (d 0 0) buf1 64 = none ∧ (p.bufOf 0x100).provisional = true) ∧
    (let p := (s (d 0 0)).setTileRec 1025 { fill := 4096, poison := true };
      Starts p 4 0 2 (d 0 0) ∧ ((p.start (d 0 0)).taRead buf1 64).2.2 = true) := by
  unfold Starts Quiet; decide +kernel

theorem witness_HostComplete :
    let c := command 4 3 0 0 0 0 0
    let s := queued (hostUp State.reset) c
    let full := s.setFld F.HST_QCFG.CQ_LOG 0 0
    let reset := queued { hst := { afterPerst := true } } c
    (Starts s 4 0 3 c ∧ Orderly s ∧ s.hst.afterPerst = false ∧ s.pairEn 0 0 = true ∧ s.fnActive 0 = true ∧
      natAt (leBytes 8 (dA c.desc).toNat ++ leBytes 8 (dB c.desc).toNat) 6 2 < 16 ∧ (s.pair 0 0).sqHead < 65536 ∧
      s.completeWaits c = false) ∧
    (Starts full 4 0 3 c ∧ full.pairEn 0 0 = true ∧ full.completeWaits c = true) ∧
    (Starts reset 4 0 3 c ∧ reset.hst.afterPerst = true) := by
  unfold Starts Orderly; decide +kernel

/-- A work item as HST fetches it, of an operation of class 0. -/
def sqItem : List Byte := 1 :: List.replicate 63 0

theorem witness_HostQueues :
    let s := hostUp State.reset
    let one := withPair { sqTail := 1, unsignalled := 1 } s
    (s.canonical = true ∧ Orderly s ∧ s.pairEn 0 0 = true ∧ s.sqDepth 0 0 = 16 ∧ s.sqItems 0 0 = 0 ∧ (s.pair 0 0).sqTail = 0 ∧
      s.hst.waiting = [] ∧ s.cqDepth 0 0 = 16 ∧ s.cqItems 0 0 = 0) ∧
    (Orderly one ∧ (0 + 16 - (one.pair 0 0).sqTail) % 16 + one.sqItems 0 0 = 16 ∧ 0 < (one.pair 0 0).unsignalled ∧
      Max.max 1 (one.fld F.HST_QCOAL.COAL_CNT 0) ≤ (one.pair 0 0).unsignalled) := by
  unfold Orderly; decide +kernel

theorem witness_HostPairs :
    let off (x y : Nat) := (State.reset.setFld F.HST_QCFG.SQ_LOG x 0).setFld F.HST_QCFG.CQ_LOG y 0
    ((off 4 16).pairEn 0 0 = false ∧ (off 4 16).fld F.HST_QCFG.SQ_LOG 0 = 4 ∧ (off 4 16).fld F.HST_QCFG.CQ_LOG 0 = 16) ∧
    ((off 3 4).fld F.HST_QCFG.SQ_LOG 0 = 3 ∧ (off 4 17).fld F.HST_QCFG.CQ_LOG 0 = 17 ∧ (off 3 4).canonical = true) := by
  decide +kernel

theorem witness_HostBatch :
    let one := withPair { sqTail := 1 } (hostUp State.reset)
    let batch := queue0 (pools one)
    let a := batch.alloc (batch.fld F.HST_CTL.WI_CLASS) 0x01 20
    (batch.canonical = true ∧ Orderly batch ∧ batch.batchAllowed 0 0 [sqItem] = true ∧ a.2 = some 0x200 ∧ itemCheck sqItem = none ∧
      Quiet a.1 (mkTa 0x200 0) 64) ∧
    ((queue0 one).batchAllowed 0 0 [sqItem] = true ∧
      ((queue0 one).alloc ((queue0 one).fld F.HST_CTL.WI_CLASS) 0x01 20).2 = none) := by
  unfold Quiet Orderly; decide +kernel

theorem onTarget_reset : OnTarget State.reset := by
  intro t c h
  simp [State.cmds, State.reset, SMap.get, SMap.find?] at h

theorem witness_HostResets :
    let s := hostUp State.reset
    let up := { State.reset with hst := { perstHigh := true } }.setFld F.BOOT_STAT.BEGUN 16
    let dbg := State.reset.setFld F.HST_CTL.DBG_EN 1
    (State.reset.canonical = true ∧ Orderly State.reset ∧ s.fnActive 0 = true ∧ s.fnActive 1 = false) ∧
    (up.canonical = true ∧ up.hst.perstHigh = true ∧ up.stepBegun 4 = true ∧ up.altApplied 4 = false) ∧
    (State.reset.pwr.trans = .none ∧ State.reset.fld F.PWR_STAT.STATE = 0 ∧ State.reset.fld F.PWR_STAT.LATCHED = 0 ∧
      State.reset.stepDone 3 = false) ∧
    State.reset.flag F.HST_CTL.DBG_EN = false ∧
    (dbg.flag F.HST_CTL.DBG_EN = true ∧ dbg.flag F.KEY_CTL.SECURE = false ∧ dbg.flag F.TIL_CTL.BUSERR_MODE = false ∧
      4096 * 256 + 4096 ≤ 4096 * dbg.tileCount ∧ dbg.locatedIn 256 0 1 = []) := by
  unfold Orderly; decide +kernel

/-- OnTarget reads the command queues only. -/
theorem onTarget_hostUp : OnTarget (hostUp State.reset) := onTarget_reset

theorem witness_RegisterAccessByCode :
    let s := (hostUp State.reset).setFld F.BOOT_STAT.DONE 16
    (s.canonical = true ∧ s.stepDone 4 = true ∧ s.fnActive 0 = true) ∧
    ((regAt 0x800000).isSome = true ∧ pfOffset 0x800000 = 0x800000 ∧ s.writeHeld 0x800000 = false ∧ s.commandBits 0x800000 = 0) ∧
    State.reset.stepDone 4 = false := by decide +kernel

/-- A register with no consequence of a write beyond its fields. -/
theorem witness_Registers_hook : ∀ (x : State) (old v : W32), x.regHook 0x800000 old v = x := by
  intro x old v; simp [State.regHook, State.hookStore]

/-- A state that serves work items, with stream 5 open and one record of it. -/
def serving : State :=
  let s := hostUp State.reset
  { s with hst := { s.hst with
      streams := [(5, { isOpen := true })]
      records := [{ stream := 5, seq := 1, yealm := some 9, length := 4 }] } }
/-- A work item of an operation on stream 5, its record 1, with four data bytes where it carries data, a CRC-32C and parameters. -/
def item (op : Nat) (crc : W32) (params : List Byte) : WorkItem :=
  { work 64 with
    bytes := leBytes 4 op ++ leBytes 4 5 ++ leBytes 8 0 ++ leBytes 4 (if op < 64 then 0 else 4) ++ leBytes 4 crc.toNat ++ leBytes 8 1 ++
      (params ++ List.replicate (32 - params.length) 0)
    data := [1, 2, 3, 4] }

/-- What ItemReady asks of a state with no command at HST. -/
def readyNow (s : State) (w : WorkItem) : Bool :=
  s.served w && s.hst.waiting.isEmpty && s.cqRoom w.fn w.pair 1 && (s.cmds 4).isEmpty && s.held.isEmpty &&
    decide ((s.pair w.fn w.pair).sqHead < 65536)

theorem itemReady_of (s : State) (w : WorkItem) (h : readyNow s w = true) : ItemReady s w := by
  simp only [readyNow, Bool.and_eq_true, List.isEmpty_iff, decide_eq_true_eq] at h
  obtain ⟨⟨⟨⟨⟨h1, h2⟩, h3⟩, h4⟩, h5⟩, h6⟩ := h
  exact ⟨h1, h2, fun k => by simp [State.entryWaits, h3, h4, h5], h6⟩

theorem witness_WorkItemOpcodes :
    serving.canonical = true ∧ Orderly serving ∧ serving.clocked = true ∧
    (∀ op ∈ [0x01, 0x02, 0x41, 0x83], readyNow serving (item op 0 []) = true ∧ (item op 0 []).opcode = op) ∧
    (hostUp State.reset).served { item 0x01 0 [] with pair := 1 } = false := by
  unfold Orderly; decide +kernel

theorem witness_WorkItemControls :
    let p (at' v : Nat) := patch (List.replicate 32 0) at' (leBytes 4 v)
    let on (op : Nat) (params : List Byte) := readyNow serving (item op 0 params) = true ∧ (item op 0 params).opcode = op ∧
      natAt (item op 0 params).params 20 4 = natAt params 20 4 ∧ natAt (item op 0 params).params 0 4 = natAt params 0 4
    let busy := serving.setFld F.BOOT_STAT.BEGUN 64
    let none' := { serving with hst := { serving.hst with streams := [] } }
    (∀ op ∈ [1, 3, 5, 6, 7], on op []) ∧ (∀ n ∈ [65535, 65536, 4194304, 4194305], on 2 (p 20 n)) ∧
    (∀ k ∈ [0, 1, 2], on 0x82 (p 0 k)) ∧
    (serving.busMaster 0 = true ∧ (serving.stream (item 3 0 [])).isOpen = true ∧ serving.findRecord (item 7 0 []) = some 9 ∧
      (serving.stream (item 2 0 (p 20 65536))).orig = 0) ∧
    (none'.canonical = true ∧ Orderly none' ∧ readyNow none' (item 3 0 []) = true ∧
      (none'.stream (item 3 0 [])).isOpen = false) ∧
    ({ none' with hst := { none'.hst with records := [] } }.findRecord (item 7 0 []) = none) ∧
    (serving.afeHeld = false ∧ busy.canonical = true ∧ Orderly busy ∧ busy.clocked = true ∧ readyNow busy (item 5 0 []) = true ∧
      busy.afeHeld = true) := by
  unfold Orderly; decide +kernel

/-- An open segment of the point class under another token ends before a stream is opened anew. -/
theorem witness_WorkItemControls_reopen :
    let s : State := { serving with hst := { serving.hst with streams := [(5, { isOpen := true, tkid := 7, orig := 1 })] } }
    s.canonical = true ∧ Orderly s ∧ s.clocked = true ∧ readyNow s (item 2 0 []) = true ∧ (s.stream (item 2 0 [])).orig ≠ 0 ∧
      (s.stream (item 2 0 [])).tkid.toNat ≠ natAt (item 2 0 []).params 8 8 ∧ (s.endSegment 5).2 = some 0x0030 := by
  unfold Orderly; decide +kernel

theorem witness_CommitForms :
    let w := item 0x04 0 []
    let keyless : State := { serving with hst := { serving.hst with streams := [(5, { isOpen := true, tkid := 7, orig := 70000 })] } }
    (serving.canonical = true ∧ Orderly serving ∧ serving.clocked = true ∧ readyNow serving w = true ∧ w.opcode = 4 ∧
      serving.commitGroup.2 = none ∧ (∀ e ∈ serving.hst.streams, e.2.mayEnd (!serving.openStreams) = false)) ∧
    (keyless.canonical = true ∧ Orderly keyless ∧ keyless.clocked = true ∧ readyNow keyless w = true ∧
      keyless.commitGroup.2 = some 0x0030) := by
  unfold Orderly; decide +kernel

theorem witness_WorkItemData_write :
    let good := item 0x41 (crc32c [1, 2, 3, 4]) []
    let x := serving.stream good
    let keyless : State := { serving with hst := { serving.hst with streams := [(5, { isOpen := true, tkid := 7 })] } }
    let off : State := { serving with hst := { serving.hst with streams := [(5, { isOpen := true, cls := 1 })] } }
    (readyNow serving good = true ∧ good.opcode = 0x41 ∧ serving.busMaster 0 = true ∧ good.length.toNat = 4 ∧
      crc32c (bytesAt good.data 0 4) = good.crc ∧ x.isOpen = true ∧ x.plain = true ∧ serving.keyed x = true ∧
      serving.engineOff x = false ∧ (serving.keepRecord good).2 = none) ∧
    (serving.flag F.HST_FN.CRC_DEV 0 = false ∧ crc32c (bytesAt (item 0x41 0 []).data 0 4) ≠ (item 0x41 0 []).crc) ∧
    (Orderly keyless ∧ readyNow keyless good = true ∧ keyless.keyed (keyless.stream good) = false) ∧
    (Orderly off ∧ readyNow off good = true ∧ off.keyed (off.stream good) = true ∧ off.engineOff (off.stream good) = true) := by
  unfold Orderly; decide +kernel

theorem witness_WorkItemData_key :
    let slot (n : Nat) : WorkItem := { item 0x42 (crc32c [1, 2, 3, 4]) (leBytes 4 n) with data := [1, 2, 3, 4] }
    readyNow serving (slot 12) = true ∧ (slot 12).opcode = 0x42 ∧ crc32c (bytesAt (slot 12).data 0 4) = (slot 12).crc ∧
      importShapeOk (natAt (slot 12).params 0 4) 4 = false ∧ importShapeOk 12 40 = true ∧
      crc32c (bytesAt (item 0x42 0 []).data 0 4) ≠ (item 0x42 0 []).crc := by decide +kernel

theorem witness_WorkItemData_read :
    let given (l : List Byte) : WorkItem := { item 0x81 0 [] with tape := [l] }
    let unit (l : List Byte) := recordHeader 0 5 1 l ++ [1, 2, 3, 4]
    let found (l : List Byte) := serving.readUnits 5 1 (l.length / 32 + 2) {} l [l.length]
    let gives (l : List Byte) (crc : Nat) : Bool := match found l with
      | .ok (some r) => decide (r = ([1, 2, 3, 4], crc))
      | _ => false
    readyNow serving (given []) = true ∧ (given []).opcode = 0x81 ∧ serving.busMaster 0 = true ∧
    gives (unit [1, 2, 3, 4]) (crc32c [1, 2, 3, 4]).toNat = true ∧ gives (unit [1, 2, 3, 5]) (crc32c [1, 2, 3, 5]).toNat = true ∧
    crc32c [1, 2, 3, 5] ≠ crc32c [1, 2, 3, 4] ∧
    (match found [] with
      | .ok none => true
      | _ => false) = true ∧
    (match found ([0x01, 0x7A] ++ List.replicate 30 0) with
      | .error e => e == 0x0021
      | _ => false) = true := by decide +kernel

/-- DMA ready, HST's turn, a vector that may send, and a register of a unit whose writes S6 holds back. -/
theorem witness_Host_more :
    let f := command 4 1 0 0 buf1 4096 0
    let s := queued (hostUp (owned 0x14)) f
    let batch := queue0 (pools (withPair { sqTail := 1 } (hostUp State.reset)))
    let armed := { hostUp State.reset with hst := { (hostUp State.reset).hst with
      config := [(4, 6), (0x90, 0x80000000)], msix := [(12, 0)] } }
    (s.dmaReady 0 = true ∧ Orderly s ∧ (queued (owned 0x14) f).dmaReady 0 = false) ∧
    (batch.fetchTurn = some 0 ∧ batch.hst.turn < 256 ∧ batch.inRun = true ∧ (batch.queue 0).wp = (batch.queue 0).wp2 ∧
      (batch.queue 0).rp = (batch.queue 0).rp2 ∧ (hostUp State.reset).fetchTurn = none) ∧
    (armed.msixSends 0 0 = true ∧ (hostUp State.reset).msixSends 0 0 = false) := by
  unfold Orderly; decide +kernel

theorem witness_RegisterAccess_more :
    let s := (hostUp State.reset).setFld F.BOOT_STAT.DONE 16
    let held := s.setFld F.BOOT_STAT.BEGUN 64
    (s.inRun = true ∧ s.stepDone 4 = true ∧ s.fnActive 0 = true ∧ (hostUp State.reset).stepDone 4 = false) ∧
    (held.canonical = true ∧ held.inRun = true ∧ held.stepDone 4 = true ∧ held.fnActive 0 = true ∧ held.writeHeld 0xC00000 = true) ∧
    (regAt 0xFC = none ∧ s.writeHeld 0xFC = false ∧ 2 < (s.setFld F.PWR_STAT.STATE 3).fld F.PWR_STAT.STATE) := by decide +kernel

theorem witness_HostResets_debug :
    let dbg := State.reset.setFld F.HST_CTL.DBG_EN 1
    let im := (imaged State.reset []).setFld F.HST_CTL.DBG_EN 1
    (dbg.inRun = true ∧ dbg.imageTile 256 = false ∧ dbg.locatedIn 256 0 1 = []) ∧
      (im.canonical = true ∧ im.inRun = true ∧ im.imageTile 16384 = true ∧ 4096 * 16384 + 1 ≤ 4096 * im.tileCount) := by decide +kernel
/-! ## The same: ring, umpire, teams -/

/-- A formatter of ID 0x102 on a running ring, both links up, and its ports no fold edges. -/
def ring (s : State) : State :=
  ((({ s with rng := { east := { foldEdge := false }, west := { foldEdge := false } } }.setFld F.RNG_CTL.ID 0x102).setFld
    F.RNG_CTL.RUN 1).setFld F.RNG_PORTE.STATE 2).setFld F.RNG_PORTW.STATE 2
/-- A frame that is whole, with sequence number 0 on its link. -/
def ringFrame (cls dst src : Nat) (b : List Byte) : RingFrame :=
  let h := frameHeader cls true dst src 9 0 b.length b.length
  { link := linkWord 0 0 false false false 0, header := h, payload := b, crc := crc32c (h ++ b), stomped := false }

theorem witness_RingSend :
    let c (cls n : Nat) := command 5 1 0x103 buf1 0 n cls
    let s (c : Cmd) := queued (ring (owned 0x20)) c
    let r := ((s (c 0x40 2048)).start (c 0x40 2048)).taRead buf1 2048
    let edges := { owned 0x20 with rng := {} }.setFld F.RNG_CTL.RUN 1
    (Starts (s (c 0x40 2048)) 5 0 1 (c 0x40 2048) ∧ (s (c 0x40 2048)).flag F.RNG_CTL.RUN = true ∧
      (s (c 0x40 2048)).engCheck (c 0x40 2048) buf1 2048 = none ∧ r.2.2 = false ∧ Open r.1 .east) ∧
    (let p := (s (c 0x40 8)).setTileRec 1025 { fill := 4096, poison := true };
      Starts p 5 0 1 (c 0x40 8) ∧ ((p.start (c 0x40 8)).taRead buf1 8).2.2 = true) ∧
    (Starts (queued edges (c 0x40 8)) 5 0 1 (c 0x40 8) ∧ (queued edges (c 0x40 8)).rng.east.foldEdge = true ∧
      (queued edges (c 0x40 8)).rng.west.foldEdge = true) ∧
    (Starts (s (c 0x3F 8)) 5 0 1 (c 0x3F 8) ∧ dD (c 0x3F 8).desc < 0x40) ∧
    (Starts (s (c 0x40 16777217)) 5 0 1 (c 0x40 16777217)) := by
  unfold Starts Open; decide +kernel

theorem witness_RingPost :
    let c := command 5 2 0x40 buf1 0 4096 0
    let s := queued (ring (owned 0x20)) c
    let full := { s with rng := { s.rng with posted := List.replicate 16 c } }
    (Starts s 5 0 2 c ∧ s.engCheckW c buf1 4096 = none ∧ s.rng.posted = []) ∧
    (Starts full 5 0 2 c ∧ full.engCheckW c buf1 4096 = none ∧
      (full.rng.posted.filter fun x => dArg x.desc == dArg c.desc).length = 16) := by
  unfold Starts; decide +kernel

theorem witness_RingReceipt :
    let s := ring { rng := {} }
    let x : Sending := ⟨command 5 1 0x103 buf1 0 8 0x40, 3, false⟩
    let w := { s with rng := { s.rng with sending := [x] } }
    let f := ringFrame 2 0x102 0x103 [3, 0, 0x10, 0]
    ((w.rng.sending.find? fun y => y.msg == 3) = some x ∧ fhClass f.header = 2 ∧ frameOk f = true ∧ fhDst f.header = w.devId ∧
      natAt f.payload 0 2 = (3 : W16).toNat) ∧ (s.rng.sending.find? fun y => y.msg == 3) = none := by decide +kernel

theorem witness_RingLink :
    let s := ring State.reset
    let f := ringFrame 0x40 0x105 0x101 [1, 2]
    let own := ringFrame 0x40 0x105 0x102 [1, 2]
    let bad := { f with crc := 0 }
    let late := { f with link := linkWord 5 0 false false false 0 }
    (s.canonical = true ∧ Accepted s .east f ∧ fhSrc f.header ≠ s.devId ∧ fhDst f.header ≠ s.devId ∧ fhDst f.header ≠ 0xFFFF ∧
      Open s .west) ∧
    State.reset.portUp .east = false ∧ (s.portUp .east = true ∧ lwOk { f with link := 1 }.link = false) ∧
    (Accepted s .east own ∧ fhSrc own.header = s.devId) ∧
    (lwOk late.link = true ∧ lwAckValid late.link = false ∧ lwNak late.link = false ∧ frameOk late = true ∧
      lwSeq late.link ≠ (s.rport .east).expect) ∧
    (lwOk bad.link = true ∧ frameOk bad = false ∧ fhSrc bad.header ≠ s.devId ∧ fhDst bad.header ≠ s.devId ∧
      (s.rport .west).foldEdge = false) := by
  unfold Accepted Open; decide +kernel

theorem witness_RingMessageIn :
    let c := command 5 2 0x40 buf1 0 4096 0
    let s0 := ring (owned 0x20)
    let s := { s0 with rng := { s0.rng with posted := [c] } }
    let f := ringFrame 0x40 0x102 0x101 (List.replicate 64 7)
    s.canonical = true ∧ Accepted s .east f ∧ Open s .east ∧ fhSrc f.header ≠ s.devId ∧ fhDst f.header = s.devId ∧
      fhOff f.header = 0 ∧ fhTotal f.header = f.payload.length ∧ f.payload.length ≤ dC c.desc ∧ s.rng.reasm = [] ∧
      s.rng.finished = [] ∧ dArg c.desc = fhClass f.header ∧ Quiet s buf1 2048 := by
  unfold Accepted Open Quiet; decide +kernel

theorem witness_RingLinkEvents :
    let s0 := ring State.reset
    let un (r : RPort) := { s0 with rng := { s0.rng with east := r } }
    let g : OutFrame := ⟨0, false, 1, List.replicate 24 0, [1]⟩
    ((un { unacked := [g], foldEdge := false }).portUp .east = true ∧ ((un { unacked := [g], foldEdge := false }).rport .east).unacked ≠ []) ∧
    ((un { ackDue := true }).portUp .east = true ∧ ((un { ackDue := true }).rport .east).ackDue = true) ∧
    (s0.portState .east = 2 ∧ State.reset.portState .east ≠ 2) ∧
    (let s := (un { unacked := [g], foldEdge := false }).setFld F.RNG_PORTE.STATE 3;
      s.canonical = true ∧ (s.rport .east).foldEdge = false ∧ s.portState .east = 3 ∧ (s.rport .east).held = [] ∧
      (s.rport .east).unacked = [g] ∧ g.folded = false ∧ Open s .west) ∧
    (let s := (un { foldEdge := false }).setFld F.RNG_PORTE.STATE 3; (s.rport .east).unacked = [] ∧ s.portState .east = 3) ∧
    (State.reset.rport .east).foldEdge = true := by
  unfold Open; decide +kernel

theorem witness_RingPorts :
    let s := ring State.reset
    let en := s.setFld F.RNG_CTL.EAST_EN 1
    let t := en.setFld F.RNG_PORTE.STATE 1
    let v := { en.setFld F.RNG_PORTE.STATE 3 with rng := {} }
    (s.canonical = true ∧ s.portState .east = 2 ∧ s.flag (enField .east) = false) ∧
    (t.canonical = true ∧ t.portState .east = 1 ∧ t.flag (enField .east) = true ∧ t.devId = 0x102 ∧ t.devId ≠ 0 ∧ t.devId ≠ 0xFFFF) ∧
    (v.canonical = true ∧ v.portState .east = 3 ∧ (v.rport .east).foldEdge = true ∧ v.flag (enField .east) = true ∧ v.devId = 0x102) ∧
    (en.canonical = true ∧ en.portState .east = 2 ∧ en.flag (enField .east) = true ∧ en.devId = 0x102) ∧
    (State.reset.flag (enField .east) = false ∧ State.reset.portState .east ≠ 2) := by decide +kernel

/-- A serial number that is not this formatter's. -/
theorem witness_RingPorts_clash : Config.serial + 1 ≠ Config.serial := by
  bv_omega

theorem witness_RingPorts_serve :
    let s := ring State.reset
    let east (n : Nat) := (s.setFld F.RNG_PORTE.STATE n).setFld F.RNG_SERVE.PORT 0
    let sleep (n : Nat) := s.setFld F.PWR_STAT.STATE n
    let good (id : W16) (h : Byte) : Byte := crc8 ((leBytes 2 id.toNat).reverse ++ [h])
    ((east 3).canonical = true ∧ (east 3).portState .east = 3 ∧ (east 4).portState .east = 4 ∧ (east 2).portState .east = 2 ∧
      (east 2).flag F.RNG_SERVE.PORT = false) ∧
    (s.fld F.PWR_STAT.STATE = 0 ∧ ∀ n ∈ [1, 2, 3, 4], (sleep n).canonical = true ∧ (sleep n).fld F.PWR_STAT.STATE = n) ∧
    ((sleep 2).devId = 0x102 ∧ good 0x102 3 ≠ 0 ∧ good 0xFFFF 1 ≠ good 0x102 1 ∧ good 0x103 0 ≠ good 0x103 1) := by decide +kernel

/-- The umpire's log in buffer 1, from slot 127 on. -/
def umpire : State :=
  (((owned 1).setFld F.UMP_LOG.HANDLE 0x100).setFld F.UMP_CTL.RUN 1).setFld F.UMP_PTR.HEAD 127 |>.setFld F.UMP_PTR.TAIL 1
/-- A partner report of code 0x0301 from 0x103, with its CRC-32C. -/
def report : List Byte :=
  let b : List Byte := [0x01, 0x03, 0x03, 0x01, 0x03, 0x01, 0, 0] ++ List.replicate 20 0
  b ++ leBytes 4 (crc32c b).toNat

theorem witness_UmpireReportsAndWindows :
    let w : Window := ⟨0x103, 0x301, 0x103, false, 2, 0, 5⟩
    let one (n : Nat) : State := { umpire with ump := { windows := [{ w with count := n }] } }
    (umpire.canonical = true ∧ umpire.ump.dropsSince = 0 ∧ report.length = 32 ∧ (crc32c (bytesAt report 0 28)).toNat = natAt report 28 4 ∧
      umpire.windowOf (natAt report 2 2) (natAt report 0 2) = none ∧ umpire.ump.windows.length < 64 ∧
      umpire.logTile = some 1025 ∧ umpire.logUnread = 126 ∧ umpire.locatedIn 1025 (32 * 127) 32 = []) ∧
    (crc32c (bytesAt (List.replicate 32 0) 0 28)).toNat ≠ natAt (List.replicate 32 0) 28 4 ∧
    ((one 2).canonical = true ∧ (one 2).windowOf (natAt report 2 2) (natAt report 0 2) = some w) ∧
    ((one 2).windowOf (0x103 : W16).toNat (0x301 : W16).toNat = some w ∧ w.count ≠ 0 ∧ w.own = false ∧ (one 2).logTile = some 1025) ∧
    ((one 0).windowOf (0x103 : W16).toNat (0x301 : W16).toNat = some { w with count := 0 }) ∧ State.reset.logTile = none := by
  decide +kernel

/-- A formatter that is member `me` of a team of three (layout, K, N, leader, second) in slot 0, its IDs 0x101 to 0x103, with a
class 6 buffer of TEAM (handle 0xC0000000) and more words of its image. -/
def teamOf (layout k n me leader second : Nat) (more : List (Nat × Nat)) : State :=
  let w0 := 7 + 2 ^ 32 + layout * 2 ^ 48 + k * 2 ^ 51 + n * 2 ^ 57
  let w1 := 2 + me * 16 + leader * 2 ^ 32 + second * 2 ^ 48
  let s := imaged { rng := { east := { foldEdge := false }, west := { foldEdge := false } }, bufs := [(12582912, { owner := 0x13 })] }
    ([(0x10000, w0), (0x10001, w1), (0x10010, 0x101), (0x10011, 0x102), (0x10012, 0x103)] ++ more)
  (((((s.setFld F.POOL_CLASS.EN 1 6).setFld F.POOL_COUNT.COUNT 1 6).setFld F.POOL_CLASS.BASE 4096 6).setFld F.RNG_CTL.ID
    (0x101 + me)).setFld F.TEAM_CTL.RUN 1).setFld F.TEAM_SLOT.ACT 1 0 |>.setFld F.RNG_CTL.RUN 1 |>.setFld F.RNG_PORTE.STATE 2
/-- The same with no more words. -/
def team (layout k n me leader second : Nat) : State := teamOf layout k n me leader second []
/-- The tile address of that buffer. -/
def buf6 : W64 := 0xC000000000000000

theorem witness_Stripe :
    let c (l : Nat) := command 3 1 0 buf6 0 0 l
    let s2 := queued (team 2 2 1 0 0x101 0) (c 0)
    let s3 := queued (team 3 2 1 0 0x101 0) (c 0)
    let no := queued (team 3 2 1 0 0x101 0) (c 1)
    (Starts s2 3 0 1 (c 0) ∧ s2.stripeCheck (c 0) = none ∧ s2.teamSelf 0 = 0 ∧ s2.isData 0 0 = true ∧ s2.teamLayout 0 = 2 ∧
      (s2.taRead buf6 (s2.unitLen 0)).1 = s2 ∧ (s2.taRead buf6 (s2.unitLen 0)).2.2 = false ∧ s2.leakLow 0 = 0) ∧
    (Starts s3 3 0 1 (c 0) ∧ s3.stripeCheck (c 0) = none ∧ s3.isData 0 0 = true ∧ (s3.liveMembers 0).getLast? = some 2 ∧
      s3.team.early = [] ∧ (s3.taRead buf6 (s3.unitLen 0)).1 = s3 ∧ (s3.taRead buf6 (s3.unitLen 0)).2.2 = false) ∧
    (Starts no 3 0 1 (c 1) ∧ no.stripeCheck (c 1) = some 0x0010) := by
  unfold Starts; decide +kernel

theorem witness_TeamRebuildRead :
    let c (l : Nat) := command 3 2 0 buf6 0 4 l
    let lost := teamOf 3 2 1 0 0x101 0 [(0x10011, 0x102 + 2 ^ 18 + 4 * 2 ^ 32)]
    let listed := teamOf 3 2 1 0 0x101 0 [(0x10011, 0x102 + 2 ^ 18 + 5 * 2 ^ 32), (0x10100, 2 ^ 63 + 2 ^ 33 + 4)]
    (Starts (queued lost (c 1)) 3 0 2 (c 1) ∧ (queued lost (c 1)).slotActive 0 = true ∧ (queued lost (c 1)).memberCount 0 = 3 ∧
      (queued lost (c 1)).teamBuffer (c 1) 0 = none ∧ (queued lost (c 1)).stripeListed 0 4 1 = false ∧
      (queued lost (c 1)).memberLost 0 1 = true ∧ (queued lost (c 1)).lossStripe 0 1 = 4) ∧
    (Starts (queued listed (c 1)) 3 0 2 (c 1) ∧ (queued listed (c 1)).stripeListed 0 4 1 = true ∧
      4 < (queued listed (c 1)).lossStripe 0 1) ∧
    (Starts (queued lost (c 3)) 3 0 2 (c 3) ∧ (queued lost (c 3)).memberCount 0 ≤ 3) := by
  unfold Starts; decide +kernel

theorem witness_TeamLeaks :
    let c (n : Nat) := command 3 3 0 0 0 0 n
    let s (n : Nat) := queued (team 3 2 1 0 0x102 0) (c n)
    let j : LeakJob := { cmd := { c 1 with txn := 3 }, slot := 0, first := 0, count := 1, sealSeq := 5 }
    let w := { team 3 2 1 0 0x102 0 with team := { leaks := [j] } }
    let rec5 : SealRec := { seq := 5, first := 0, last := 0, skip := 0, idxFirst := 0, idxCount := 0, flags := 0, wrap := 0, lpos := 0, crc := 0, selector := 0 }
    let sealed := { w with fmt := { chain := [rec5] } }
    let failed := { w with fmt := { sealFailed := [(3, 0x40)] } }
    (Starts (s 1024) 3 0 3 (c 1024) ∧ (s 1024).slotActive 0 = true ∧ (s 1024).leakLow 0 = 0) ∧
    (Starts (s 1025) 3 0 3 (c 1025) ∧ Starts (s 0) 3 0 3 (c 0)) ∧
    (sealed.team.leaks[0]? = some j ∧ j.sent = false ∧ (sealed.fmt.chain.any fun q => q.seq == j.sealSeq) = true ∧
      sealed.teamLeader 0 ≠ sealed.devId ∧ Open sealed sealed.teamPort) ∧
    ((failed.fmt.chain.any fun q => q.seq == j.sealSeq) = false ∧
      (failed.fmt.sealFailed.find? fun (e : Nat × W16) => j.cmd.txn != 0 && e.1 == j.cmd.txn) = some (3, 0x40)) ∧
    ((w.fmt.chain.any fun q => q.seq == j.sealSeq) = false ∧
      (w.fmt.sealFailed.find? fun (e : Nat × W16) => j.cmd.txn != 0 && e.1 == j.cmd.txn) = none) := by
  unfold Starts Open; decide +kernel

/-- A team frame of slot 0 for stripe 0, from a member, of half 0 and attempt 0, at offset 0, to device `dst`. -/
def teamFrame (cls sender dst : Nat) (b : List Byte) : RingFrame :=
  ringFrame cls dst 0x105 (leBytes 4 7 ++ leBytes 2 1 ++ leBytes 1 sender ++ leBytes 9 0 ++ b)
/-- What it says. -/
def said (cls sender : Nat) (b : List Byte) : TIn := ⟨0, sender, cls, 0, 0, 0, 0, 0, b⟩
/-- A chain of stripe 0 of slot 0 for member x. -/
def chain (x : Nat) (receiver : Bool) : Chain :=
  { cmd := command 3 (if receiver then 2 else 1) 0 buf6 0 0 x, slot := 0, stripe := 0, x := x, receiver := receiver }
/-- A team state with that chain. -/
def chained (s : State) (c : Chain) : State := { s with team := { s.team with chains := [c] } }

theorem witness_Parity :
    let s := chained (team 3 2 1 2 0x101 0) (chain 2 false)
    let f := teamFrame 0x10 1 0x103 [1, 2, 3, 4]
    let m := said 0x10 1 [1, 2, 3, 4]
    s.canonical = true ∧ Orderly s ∧ TeamFrame s f 0x10 0 m ∧ s.chainOf m = some (chain 2 false) ∧ OffImage s buf6 ∧
      s.rebuilds (chain 2 false) = false ∧ s.teamSelf 0 = s.teamK 0 ∧ Quiet s buf6 4 ∧ (s.liveMembers 0).getLast? = some 2 := by
  unfold Orderly TeamFrame Quiet OffImage; decide +kernel

theorem witness_TeamCopy :
    let s := chained (team 1 2 1 1 0x101 0) (chain 1 false)
    let f := teamFrame 0x12 0 0x102 [1, 2, 3, 4]
    let m := said 0x12 0 [1, 2, 3, 4]
    s.canonical = true ∧ TeamFrame s f 0x12 0 m ∧ s.chainOf m = some (chain 1 false) ∧ s.rebuilds (chain 1 false) = false ∧
      Quiet s buf6 4 ∧ OffImage s buf6 ∧ (s.liveMembers 0).getLast? = some 1 := by
  unfold TeamFrame Quiet OffImage; decide +kernel

theorem witness_Rebuild :
    let s := chained (team 3 2 1 0 0x101 0) (chain 0 true)
    let f := teamFrame 0x15 2 0x101 [1, 2, 3, 4]
    s.canonical = true ∧ TeamFrame s f 0x15 0 (said 0x15 2 [1, 2, 3, 4]) ∧
      s.chainOf (said 0x15 2 [1, 2, 3, 4]) = some (chain 0 true) ∧ (chain 0 true).slices = [] := by
  unfold TeamFrame; decide +kernel

theorem witness_Ready :
    let s := chained (team 3 2 1 1 0x101 0) (chain 1 false)
    let f := teamFrame 0x11 2 0x102 []
    let alone := team 3 2 1 1 0x101 0
    (s.canonical = true ∧ TeamFrame s f 0x11 0 (said 0x11 2 []) ∧ s.chainOf (said 0x11 2 []) = some (chain 1 false) ∧
      s.chainPrev { chain 1 false with readyFrom := some 2 } = some 0 ∧ s.memberDev 0 0 ≠ s.devId ∧ Open s s.teamPort) ∧
    (TeamFrame alone f 0x11 0 (said 0x11 2 []) ∧ alone.chainOf (said 0x11 2 []) = none ∧ alone.team.early = []) := by
  unfold TeamFrame Open; decide +kernel

theorem witness_DoneAbort :
    let s := chained (team 3 2 64 1 0x101 0) (chain 1 false)
    let d := teamFrame 0x13 2 0x102 []
    let a := teamFrame 0x14 2 0x102 [0x41, 0]
    (TeamFrame s d 0x13 0 (said 0x13 2 []) ∧ s.chainOf (said 0x13 2 []) = some (chain 1 false) ∧
      s.activeList.length * 229376 ≤ s.unitLen 0) ∧
    (TeamFrame s a 0x14 0 (said 0x14 2 [0x41, 0]) ∧ s.team.chains = [chain 1 false] ∧ s.cmds 3 = []) ∧
    (let s := chained (team 3 2 64 1 0x101 0) { chain 1 false with attempt := 1 };
      TeamFrame s d 0x13 0 (said 0x13 2 []) ∧
        ∀ y ∈ s.team.chains, y.slot = 0 → y.stripe = (said 0x13 2 []).stripe → y.attempt ≠ (said 0x13 2 []).attempt) := by
  unfold TeamFrame; decide +kernel

theorem witness_TeamMap :
    let s := team 3 2 1 0 0x102 0x101
    let lead := team 3 2 1 0 0x101 0
    let b : List Byte := leBytes 4 0 ++ leBytes 4 1
    let j : LeakJob := { cmd := command 3 3 0 0 0 0 1, slot := 0, first := 0, count := 1, sealSeq := 5, sent := true }
    let w := { s with team := { leaks := [j] } }
    (TeamFrame w (teamFrame 0x17 1 0x101 b) 0x17 0 (said 0x17 1 b) ∧ natAt b 0 4 ≤ j.first ∧
      j.first + j.count ≤ natAt b 0 4 + natAt b 4 4) ∧
    (let k : List Byte := List.replicate 132 1;
      TeamFrame s (teamFrame 0x18 1 0x101 k) 0x18 0 (said 0x18 1 k) ∧ s.teamSecond 0 = s.devId ∧ s.teamLeader 0 ≠ s.devId ∧
        Open s s.teamPort) ∧
    (TeamFrame s (teamFrame 0x16 1 0x101 b) 0x16 0 (said 0x16 1 b) ∧ s.teamLeader 0 ≠ s.devId) ∧
    (TeamFrame lead (teamFrame 0x16 1 0x101 b) 0x16 0 (said 0x16 1 b) ∧ lead.teamLeader 0 = lead.devId) := by
  unfold TeamFrame Open; decide +kernel

theorem witness_TeamControl :
    let s := image State.reset
    let on := team 3 2 1 0 0x102 0
    (s.canonical = true ∧ s.flag F.TEAM_CTL.RUN = false ∧ s.imageOk = true ∧ State.reset.imageOk = false) ∧
    (s.flag F.TEAM_SLOT.ACT 0 = false ∧ s.teamStopped = true) ∧
    ((State.reset.setFld F.TEAM_CTL.RUN 1).flag F.TEAM_SLOT.ACT 1 = false ∧ (State.reset.setFld F.TEAM_CTL.RUN 1).teamStopped = false) ∧
    (on.canonical = true ∧ on.flag F.TEAM_SLOT.ACT 0 = true ∧ on.team.chains = [] ∧ on.teamLeader 0 ≠ on.devId) := by decide +kernel

/-! ## The same: power, AON, boot -/

/-- A state with the power controller in a state and a transition. -/
def powerAt (st : Nat) (t : Transition) (q : Bool := false) : State :=
  ({ pwr := { trans := t, qdrDropped := q } } : State).setFld F.PWR_STAT.STATE st
/-- The idle timers of T1, T2 and T3 on, and tile memory dropped in NAP. -/
def timers (s : State) : State :=
  ((((s.setFld F.PWR_CTL.AUTO 1).setFld F.PWR_T1.T1 1).setFld F.PWR_T2.T2 1).setFld F.PWR_T3.T3 1).setFld F.PWR_CTL.QDR_POL 1

theorem witness_PowerEntry :
    let s := timers State.reset
    let lat := State.reset.setFld F.PWR_STAT.LATCHED 3
    (s.canonical = true ∧ s.timerOn 0 = true ∧ s.idle = true ∧ s.pwr.trans = .none ∧ s.fld F.PWR_STAT.STATE = 0) ∧
    (s.timerOn 1 = true ∧ s.maySleep .doze = true ∧ s.timerOn 2 = true ∧ s.maySleep .nap = true) ∧
    ((State.reset.setFld F.PWR_CTL.AUTO 0).timerOn 0 = false ∧ (State.reset.setFld F.PWR_CTL.AUTO 0).canonical = true) ∧
    (State.reset.maySleep .nap = false ∧ (3 : BitVec 3).toNat ∈ [1, 2, 3, 4] ∧ 4 < (5 : BitVec 3).toNat) ∧
    (lat.canonical = true ∧ lat.fld F.PWR_STAT.LATCHED ≠ 0 ∧ lat.fld F.PWR_STAT.LATCHED ≠ 7 ∧ State.reset.fld F.PWR_STAT.LATCHED = 0) ∧
    (∀ t ∈ [Transition.entering .doze, .entering .nap, .entering .off], (powerAt 0 t).canonical = true ∧
      (powerAt 0 t).tapeStopped = true ∧ ({ powerAt 0 t with mot := { live := [(5, 1)] } } : State).tapeStopped = false) := by
  decide +kernel

theorem witness_WakeEffects :
    (∀ st ∈ [0, 1, 2, 3, 4], (powerAt st .none).canonical = true ∧ (powerAt st .none).fld F.PWR_STAT.STATE = st ∧
      (powerAt st .none).fld F.PWR_STAT.LATCHED = 0 ∧ (powerAt st .none).boot.vioGood = true ∧ (powerAt st .none).boot.held = none) ∧
    ((0x002 : BitVec 10) &&& 0x0FF).toNat ≠ 0 ∧ ((0x100 : BitVec 10) &&& 0x1FF).toNat ≠ 0 ∧ ((0x010 : BitVec 10) &&& 0x012).toNat ≠ 0 ∧
    (powerAt 2 (.entering .nap)).pwr.trans = .entering .nap ∧
    ((powerAt 2 (.closing .doze)).setFld F.PWR_STAT.LATCHED 7).fld F.PWR_STAT.LATCHED = 7 ∧
    ((powerAt 3 (.exiting .nap) true).canonical = true ∧ (powerAt 3 (.exiting .nap) true).pwr.qdrDropped = true) ∧
    (let s := (powerAt 3 .none).setFld F.PWR_CTL.QDR_POL 2;
      s.canonical = true ∧ s.fld F.PWR_STAT.STATE = 3 ∧ s.fld F.PWR_CTL.QDR_POL = 2 ∧ s.fld F.PWR_STAT.LATCHED ≠ 7) := by
  decide +kernel

theorem witness_AonClockMemoryAndSampler :
    let s := (State.reset.setFld F.SMP_PERIOD.PERIOD 10).setFld F.SMP_CTL.LOG_ALL 1
    (s.canonical = true ∧ s.fld F.SMP_PERIOD.PERIOD ≠ 0 ∧ s.fld F.PWR_STAT.STATE = 0 ∧ s.pwr.trans = .none ∧
      s.flag F.SMP_CTL.LOG_ALL = true) ∧
    State.reset.fld F.SMP_PERIOD.PERIOD = 0 ∧ ((0x195C : BitVec 16).toNat % 4 = 0 ∧ (0x195C : BitVec 16).toNat < 0x1960) ∧
    (0x1960 ≤ (0x1960 : BitVec 16).toNat ∧ (0x1801 : BitVec 16).toNat % 4 ≠ 0) ∧
    (({ pwr := { xtal := true } } : State).canonical = true ∧ State.reset.pwr.xtal = false) := by decide +kernel

/-- A start in its step S0. -/
def started : State := State.reset.startNow 0

theorem witness_BootStarts :
    let w := State.reset.setFld F.BOOT_WDOG.PERIOD 5
    (started.canonical = true ∧ Orderly started ∧ started.boot.vinGood = true ∧ started.boot.vioGood = true ∧ started.boot.held = none ∧
      started.inStep 0 = true ∧ started.inStep 1 = false) ∧
    (started.journalOk = true ∧ natAt (started.aonBytes 0 64) 12 1 = started.boot.recIndex ∧ crc60Ok started.startRecord = true ∧
      (natAt started.startRecord 6 2).testBit 0 = true ∧ (natAt started.startRecord 8 2).testBit 0 = false ∧
      (natAt started.startRecord 10 2).testBit 0 = false) ∧
    (w.canonical = true ∧ w.fld F.BOOT_WDOG.PERIOD ≠ 0 ∧ (State.reset.setFld F.BOOT_WDOG.PERIOD 0).fld F.BOOT_WDOG.PERIOD = 0) ∧
    (let h : State := { boot := { held := some 1, vioGood := false } };
      h.canonical = true ∧ h.boot.held = some 1 ∧ h.boot.vinGood = true) := by
  unfold Orderly; decide +kernel

theorem witness_BootSteps :
    let at' (n : Nat) := started.setFld F.BOOT_STAT.BEGUN (2 ^ n)
    started.boot.recIndex < 62 ∧ (∀ n ∈ [0, 1, 2, 3, 8], (at' n).canonical = true ∧ (at' n).mayEnd n = true) ∧
      State.reset.mayEnd 0 = false := by decide +kernel

theorem witness_BootFlash :
    let a (x : Nat) := State.reset.setFld F.BOOT_FL_ADDR.ADDR x
    Orderly State.reset ∧ (a 0x40000).canonical = true ∧ (a 0x40000).fld F.BOOT_FL_ADDR.ADDR = 0x40000 ∧
      (a 0x3F000).fld F.BOOT_FL_ADDR.ADDR < 0x40000 ∧ (a 0x40100).fld F.BOOT_FL_ADDR.ADDR % 4096 ≠ 0 ∧
      (a 0x40100).fld F.BOOT_FL_ADDR.ADDR % 256 = 0 ∧ (a 0x40001).fld F.BOOT_FL_ADDR.ADDR % 256 ≠ 0 := by
  unfold Orderly; decide +kernel

theorem witness_BootImage : State.reset.slotOrder = [0, 1] ∧ bootHeaderOk (State.reset.imageSlot 0) = false ∧
    bootHeaderOk (State.reset.imageSlot 1) = false := by decide +kernel

/-- A NAP exit with the image in a strong class 6 buffer (handle 0xC0000000), tile memory kept. -/
def napKept : State :=
  (({ powerAt 3 (.exiting .nap) with bufs := [(12582912, { owner := 1 })] }.setFld F.POOL_CLASS.EN 1 6).setFld F.POOL_COUNT.COUNT 1 6
    |>.setFld F.POOL_CLASS.BASE 4096 6).setFld F.PWR_NAPIMG.HANDLE 0xC0000000

theorem witness_NapKept :
    napKept.canonical = true ∧ napKept.pwr.trans = .exiting .nap ∧ napKept.pwr.qdrDropped = false ∧
      napKept.checkUse napKept.napHandle 0 4718592 1 none = none ∧ (napKept.bufRead napKept.napHandle 0 4718592).2.2 = false := by
  decide +kernel

/-! ## The same: reading and writing tape -/

/-- Read channel 0 running, with its record. -/
def reading (r : RChan) (s : State := State.reset) : State :=
  ({ s with rchans := if r = ({} : RChan) then [] else [(0, r)] }).setFld F.RDC_CH_CTL.EN 1 0
/-- Bits of the sample history, given in the direction of travel. -/
def heardBits (l : List Bool) : List HeardBit := (l.map fun b => ({ bit := b } : HeardBit)).reverse
/-- A segment in progress of which the mini-preamble and the resume mark have been heard. -/
def begun : HeardSeg := { num := 0, start := 0, bits := heardBits (List.replicate 24 false ++ resumePattern) }

theorem witness_ReadTiming :
    let s := reading {}
    let g := { reading { inGuard := true } with mot := { ports := [(5, 5)] } }
    let a := (s.setFld F.RDC_CFG.MODE 1).setFld F.RDC_CH_STAT.ADAPTIVE 1 0
    let z := (reading { zone := some 0 } a).setFld F.RDC_CFG.CAPTURE 1
    let at' (n : Nat) := s.setFld F.RDC_GAIN_CTL.GAIN n 0
    (State.reset.canonical = true ∧ Orderly State.reset ∧ State.reset.listens 0 = false) ∧
    (s.canonical = true ∧ Orderly s ∧ s.listens 0 = true ∧ (s.rchan 0).inGuard = false ∧ ratAbs (s.rchan 0).freq ≤ 15 / 1000 ∧
      (s.rchan 0).calStop = false) ∧
    (g.canonical = true ∧ Orderly g ∧ g.listens 0 = true ∧ (g.rchan 0).inGuard = true ∧ g.tapeSpeed ≠ 0) ∧
    ((reading { calStop := true }).canonical = true ∧ (reading { calStop := true }).listens 0 = true) ∧
    ((at' 143).loopsOut 0 = false ∧ (at' 144).loopsOut 0 = true ∧ (at' 0).loopsOut 0 = true) ∧
    (z.canonical = true ∧ z.chanOn 0 = true ∧ (z.rchan 0).zone = some 0 ∧ z.flag F.RDC_CFG.CAPTURE = true ∧ z.adaptive = true ∧
      z.flag F.RDC_CH_STAT.FROZEN 0 = false ∧ (z.rchan 0).segments % 4096 = 0 ∧ s.flag F.RDC_CFG.CAPTURE = false) ∧
    (let v := z.setReg (zoneAddr 0 0 + 4) 0x10000;
      v.zoneValid 0 (some 0) = true ∧ z.zoneValid 0 (some 0) = false ∧ z.zoneValid 0 none = false) := by
  unfold Orderly; refine ⟨?_, ?_, ?_, ?_, ?_, ?_, ?_⟩ <;> decide +kernel

/-- The marks of timing, and the resume mark of a segment. -/
theorem witness_ReadTiming_marks :
    let q (n : Nat) (x : Rat) : RChan := { perr := List.replicate n x }
    ((reading (q 256 0)).canonical = true ∧ (q 256 (1 / 16)).perrSquare = some (1 / 256) ∧ (q 256 (1 / 8)).perrSquare = some (1 / 64) ∧
      (q 255 0).perrSquare = none) ∧
    ((reading { clampRun := 256 }).canonical = true ∧ (reading { defEnded := 4097 }).canonical = true) ∧
    ((reading { heard := [begun] }).canonical = true ∧ (reading { heard := [begun] }).resumeMark 0 = some ⟨0, 0, 16⟩ ∧
      (reading {}).resumeMark 0 = none ∧ ((reading { heard := [begun] }).rchan 0).heard = [begun]) ∧
    (let f := reading { heard := [begun], zone := some 0 };
      segLpos 0 0 = 6500 ∧ f.flag F.RDC_CH_STAT.HUNT 0 = false ∧ f.adaptive = false ∧ f.flag F.RDC_CH_STAT.ADAPTIVE 0 = false ∧
        (7000 ≠ segLpos 0 0 ∧ (f.rchan 0).zone.isSome = true ∧ (f.rchan 0).wrap = 0 ∧ 7000 ≠ nextLpos 0 (f.rchan 0).lpos) ∧
        (f.rchan 0).zone ≠ some (zoneOf 0 430000)) := by decide +kernel

theorem witness_ReadControl :
    let s := State.reset
    let m (n : Nat) (x : State) := x.setFld F.RDC_CFG.MODE n
    let dark := (s.setFld F.RDC_CFG.DARK_EN 1).setFld F.RDC_CFG.DARK_GRP 0
    let many := (List.range 16).foldl (fun x k => x.setFld F.RDC_CH_CTL.EN 1 (k + 1)) s
    let h := reading { handoffPending := true } s
    let two := { (reading {} s).setFld F.RDC_CH_CTL.EN 1 1 with
      rchans := [(0, { handoffPending := true }), (1, { handoffPending := true })] }
    let c : State := { calib := [0] }
    (s.canonical = true ∧ Orderly s ∧ s.afeHeld = false ∧ s.chanOn 0 = false ∧ s.darkGroup ≠ some 0 ∧ s.adaptive = false ∧ s.chansOn = []) ∧
    ((m 1 s).canonical = true ∧ (m 1 s).adaptive = true ∧ (m 1 s).afeHeld = false) ∧
    (dark.canonical = true ∧ dark.darkGroup = some 0 ∧ dark.afeHeld = false) ∧
    (many.canonical = true ∧ many.adaptive = false ∧ 16 ≤ many.chansOn.length ∧ many.chanOn 0 = false) ∧
    ((reading {} s).canonical = true ∧ (reading {} s).chanOn 0 = true ∧ (reading {} s).adaptive = false ∧
      ((reading {} s).fld F.RDC_STAT.CAL_DONE).testBit 0 = false) ∧
    (h.canonical = true ∧ h.chanOn 0 = true ∧ (h.rchan 0).handoffPending = true ∧ h.flag F.RDC_STAT.HANDOFF_DONE = false ∧
      (∀ j, j < 64 → j ≠ 0 → h.chanOn j = true → (h.rchan j).handoffPending = false)) ∧
    (two.canonical = true ∧ two.chanOn 1 = true ∧ (two.rchan 1).handoffPending = true) ∧
    ((s.setFld F.RDC_STAT.CAL_BUSY 1).flag F.RDC_STAT.CAL_BUSY = true ∧ (s.setFld F.WRC_STAT.WRITING 1).flag F.WRC_STAT.WRITING = true ∧
      s.flag F.RDC_STAT.CAL_BUSY = false ∧ s.flag F.WRC_STAT.WRITING = false) ∧
    (0 ∉ s.calib ∧ c.canonical = true ∧ 0 ∈ c.calib ∧ c.inStep 6 = false) ∧
    (let u := c.setFld F.BOOT_STAT.BEGUN 64;
      u.canonical = true ∧ 0 ∈ u.calib ∧ u.inStep 6 = true ∧ u.flag F.RDC_CFG.DARK_EN = false) := by
  unfold Orderly; refine ⟨?_, ?_, ?_, ?_, ?_, ?_, ?_, ?_, ?_, ?_⟩ <;> decide +kernel

/-! ## A copy whose bits are all erased decodes to zeros -/

/-- Every number of a list of lists is zero. -/
def Zeros (l : List (List Rat)) : Prop := ∀ r ∈ l, ∀ x ∈ r, x = 0
/-- A decoder that holds nothing but zeros. -/
def Idle (d : C1State) : Prop := Zeros d.llr ∧ ∀ m ∈ d.msgs, Zeros m
/-- A check that has heard nothing but zeros. -/
def CheckZero (a : CheckAcc) : Prop := (∀ x, a.min1 = some x → x = 0) ∧ (∀ x, a.min2 = some x → x = 0) ∧ a.odd = false

theorem mem_zipWith_pair {α β γ : Type} (f : α → β → γ) :
    ∀ (l : List α) (m : List β) (x : γ), x ∈ List.zipWith f l m → ∃ a ∈ l, ∃ b ∈ m, x = f a b
  | [], _, x, h => by simp at h
  | _ :: _, [], x, h => by simp at h
  | a :: l, b :: m, x, h => by
    simp only [List.zipWith_cons_cons, List.mem_cons] at h
    rcases h with rfl | h
    · exact ⟨a, by simp, b, by simp, rfl⟩
    · obtain ⟨c, hc, e, he, rfl⟩ := mem_zipWith_pair f l m x h
      exact ⟨c, by simp [hc], e, by simp [he], rfl⟩

theorem zeros_getD {l : List (List Rat)} (h : Zeros l) (j : Nat) : ∀ x ∈ l.getD j [], x = 0 := by
  intro x hx
  rw [List.getD_eq_getElem?_getD] at hx
  cases hj : l[j]? with
  | none => simp [hj] at hx
  | some r =>
    rw [hj] at hx
    exact h r (List.mem_of_getElem? hj) x hx

theorem zeros_turn {l : List Rat} (h : ∀ x ∈ l, x = 0) (n : Nat) : ∀ x ∈ turn l n, x = 0 := by
  intro x hx
  simp only [turn, List.mem_append] at hx
  rcases hx with hx | hx
  · exact h x (List.mem_of_mem_drop hx)
  · exact h x (List.mem_of_mem_take hx)

theorem idle_msgs {d : C1State} (h : Idle d) (r : Nat) : Zeros (d.msgs.getD r []) := by
  rw [List.getD_eq_getElem?_getD]
  cases hj : d.msgs[r]? with
  | none =>
    intro x hx
    simp at hx
  | some m => exact h.2 m (List.mem_of_getElem? hj)

theorem checkZero_add {a : CheckAcc} (h : CheckZero a) (j : Nat) {q : Rat} (hq : q = 0) : CheckZero (a.add j q) := by
  subst hq
  obtain ⟨h1, h2, h3⟩ := h
  rcases a with ⟨m1, m2, c, o⟩
  cases m1 with
  | none => exact ⟨by simp [CheckAcc.add], by simpa [CheckAcc.add] using h2, by simpa [CheckAcc.add] using h3⟩
  | some x =>
    have : x = 0 := h1 x rfl
    subst this
    refine ⟨by simp [CheckAcc.add], ?_, by simpa [CheckAcc.add] using h3⟩
    cases m2 with
    | none => simp [CheckAcc.add]
    | some y =>
      have : y = 0 := h2 y rfl
      subst this
      simp [CheckAcc.add]

theorem checkZero_msg {a : CheckAcc} (h : CheckZero a) (scale : Rat) (j : Nat) {q : Rat} (hq : q = 0) : a.msg scale j q = 0 := by
  subst hq
  obtain ⟨h1, h2, h3⟩ := h
  have z : ∀ o : Option Rat, (∀ x, o = some x → x = 0) → o.getD 0 = 0 := by
    intro o ho
    cases o with
    | none => rfl
    | some x => exact ho x rfl
  unfold CheckAcc.msg
  split <;> split <;> simp [z _ h1, z _ h2]

theorem checks_fold (q : List (List Rat × Nat)) (hq : ∀ e ∈ q, ∀ x ∈ e.1, x = 0) :
    ∀ a : List CheckAcc, (∀ c ∈ a, CheckZero c) →
      ∀ c ∈ q.foldl (fun a e => if e.1.isEmpty then a else List.zipWith (fun x v => CheckAcc.add x e.2 v) a e.1) a, CheckZero c := by
  induction q with
  | nil => exact fun a h => h
  | cons e q ih =>
    intro a h
    refine ih (fun e' he' => hq e' (by simp [he'])) _ ?_
    dsimp only
    split
    · exact h
    · intro c hc
      obtain ⟨x, hx, v, hv, rfl⟩ := mem_zipWith_pair _ _ _ _ hc
      exact checkZero_add (h x hx) _ (hq e (by simp) v hv)

theorem idle_layer {d : C1State} (h : Idle d) (scale : Rat) (r : Nat) : Idle (d.layer scale r) := by
  have hq : Zeros ((List.range 36).map fun j => match c1Shift r j with
      | some n => List.zipWith (· - ·) (turn (d.llr.getD j []) n) ((d.msgs.getD r []).getD j [])
      | none => []) := by
    intro l hl x hx
    obtain ⟨j, -, rfl⟩ := List.mem_map.1 hl
    split at hx
    · obtain ⟨a, ha, b, hb, rfl⟩ := mem_zipWith_pair _ _ _ _ hx
      rw [zeros_turn (zeros_getD h.1 _) _ a ha, zeros_getD (idle_msgs h r) _ b hb]
      decide +kernel
    · simp at hx
  generalize hqd : ((List.range 36).map fun j => match c1Shift r j with
      | some n => List.zipWith (· - ·) (turn (d.llr.getD j []) n) ((d.msgs.getD r []).getD j [])
      | none => []) = q at hq
  have hz : ∀ e ∈ q.zipIdx, ∀ x ∈ e.1, x = 0 := fun e he x hx => hq e.1 (List.fst_mem_of_mem_zipIdx he) x hx
  have hacc := checks_fold q.zipIdx hz (List.replicate 256 {}) (by
    intro c hc
    rw [List.eq_of_mem_replicate hc]
    exact ⟨by simp, by simp, rfl⟩)
  generalize hac : q.zipIdx.foldl (fun a e => if e.1.isEmpty then a else List.zipWith (fun x v => CheckAcc.add x e.2 v) a e.1)
    (List.replicate 256 {}) = acc at hacc
  have hrm : Zeros (q.zipIdx.map fun e => List.zipWith (fun x v => CheckAcc.msg x scale e.2 v) acc e.1) := by
    intro l hl x hx
    obtain ⟨e, he, rfl⟩ := List.mem_map.1 hl
    obtain ⟨a, ha, b, hb, rfl⟩ := mem_zipWith_pair _ _ _ _ hx
    exact checkZero_msg (hacc a ha) _ _ (hz e he b hb)
  have hd : d.layer scale r =
      { llr := (List.range 36).map fun j => match c1Shift r j with
          | some n => turn (List.zipWith (· + ·) (q.getD j []) ((q.zipIdx.map fun e =>
              List.zipWith (fun x v => CheckAcc.msg x scale e.2 v) acc e.1).getD j [])) ((256 - n) % 256)
          | none => d.llr.getD j []
        msgs := d.msgs.set r (q.zipIdx.map fun e => List.zipWith (fun x v => CheckAcc.msg x scale e.2 v) acc e.1) } := by
    rw [← hac, ← hqd]
    rfl
  rw [hd]
  constructor
  · intro l hl x hx
    obtain ⟨j, -, rfl⟩ := List.mem_map.1 hl
    split at hx
    · refine zeros_turn ?_ _ x hx
      intro y hy
      obtain ⟨a, ha, b, hb, rfl⟩ := mem_zipWith_pair _ _ _ _ hy
      rw [zeros_getD hq _ a ha, zeros_getD hrm _ b hb]
      decide +kernel
    · exact zeros_getD h.1 _ x hx
  · intro m hm
    rcases List.mem_or_eq_of_mem_set hm with hm | rfl
    · exact h.2 m hm
    · exact hrm

theorem idle_hard {d : C1State} (h : Idle d) : ∀ b ∈ d.hard, b = 0 := by
  intro b hb
  obtain ⟨l, hl, rfl⟩ := List.mem_map.1 hb
  have : ∀ m : List Rat, (∀ x ∈ m, x = 0) → m.foldr (fun x n => 2 * n + (if x < 0 then 1 else 0)) 0 = 0 := by
    intro m
    induction m with
    | nil => intro _; rfl
    | cons x m ih =>
      intro hm
      simp [ih fun y hy => hm y (by simp [hy]), hm x (by simp)]
  rw [this l (h.1 l hl)]
  rfl

theorem c1Ok_zero {l : List Block} (h : ∀ b ∈ l, b = 0) : c1Ok l = true := by
  have rot : ∀ n, blockShift 0 n = 0 := by intro n; simp [blockShift, BitVec.rotateRight, BitVec.rotateRightAux]
  have go : ∀ r (q : List (Block × Nat)), (∀ e ∈ q, e.1 = 0) →
      q.foldl (fun x e => x ^^^ (match c1Shift r e.2 with | some k => blockShift e.1 k | none => 0)) (0 : Block) = 0 := by
    intro r q
    induction q with
    | nil => intro _; rfl
    | cons e q ih =>
      intro hq
      have he := hq e (by simp)
      simp only [List.foldl_cons, he]
      have : ((0 : Block) ^^^ (match c1Shift r e.2 with | some k => blockShift 0 k | none => 0)) = 0 := by
        split
        · rw [rot]; rfl
        · rfl
      rw [this]
      exact ih fun e' he' => hq e' (by simp [he'])
  unfold c1Ok c1RowOk
  rw [List.all_eq_true]
  intro r _
  exact beq_iff_eq.2 (go r l.zipIdx fun e he => h e.1 (List.fst_mem_of_mem_zipIdx he))

/-- C1 passes a copy whose LLRs are all zero. -/
theorem c1_of_zeros (scale : Rat) (k : Nat) (llr : List Int) (hl : ∀ x ∈ llr, x = 0) (hn : k ≠ 0) :
    (c1Pass scale C1State.start k llr).2.isSome = true := by
  have hin : Idle (C1State.start.input llr) := by
    refine ⟨?_, ?_⟩
    · have hb : Zeros ((List.range 36).map fun j => ((llr.drop (256 * j)).take 256).map fun (x : Int) => (x : Rat)) := by
        intro l hl' x hx
        obtain ⟨j, -, rfl⟩ := List.mem_map.1 hl'
        obtain ⟨y, hy, rfl⟩ := List.mem_map.1 hx
        rw [hl y (List.mem_of_mem_drop (List.mem_of_mem_take hy))]
        rfl
      have hm : ∀ r, Zeros (C1State.start.msgs.getD r []) := by
        refine idle_msgs ⟨fun l hl' => absurd hl' List.not_mem_nil, ?_⟩
        intro m hm l hl' x hx
        change m ∈ List.replicate 4 (List.replicate 36 (List.replicate 256 (0 : Rat))) at hm
        rw [List.eq_of_mem_replicate hm] at hl'
        rw [List.eq_of_mem_replicate hl'] at hx
        exact List.eq_of_mem_replicate hx
      have go : ∀ (q : List Nat) (bl : List (List Rat)), Zeros bl →
          Zeros (q.foldl (fun bl r => (List.range 36).map fun j => match c1Shift r j with
            | some h => List.zipWith (· + ·) (bl.getD j []) (turn ((C1State.start.msgs.getD r []).getD j []) ((256 - h) % 256))
            | none => bl.getD j []) bl) := by
        intro q
        induction q with
        | nil => exact fun bl h => h
        | cons r q ih =>
          intro bl h
          refine ih _ ?_
          intro l hl' x hx
          obtain ⟨j, -, rfl⟩ := List.mem_map.1 hl'
          split at hx
          · obtain ⟨a, ha, b, hb', rfl⟩ := mem_zipWith_pair _ _ _ _ hx
            rw [zeros_getD h _ a ha, zeros_turn (zeros_getD (hm r) _) _ b hb']
            decide +kernel
          · exact zeros_getD h _ x hx
      exact go (List.range 4) _ hb
    · intro m hm l hl' x hx
      change m ∈ List.replicate 4 (List.replicate 36 (List.replicate 256 (0 : Rat))) at hm
      rw [List.eq_of_mem_replicate hm] at hl'
      rw [List.eq_of_mem_replicate hl'] at hx
      exact List.eq_of_mem_replicate hx
  have hfold : ∀ (q : List Nat) (d : C1State), Idle d → Idle (q.foldl (fun d r => d.layer scale r) d) := by
    intro q
    induction q with
    | nil => exact fun d h => h
    | cons r q ih => exact fun d h => ih _ (idle_layer h scale r)
  obtain ⟨n, hn'⟩ := Nat.exists_eq_succ_of_ne_zero hn
  have : ((C1State.start.input llr).iterate scale (n + 1)).2.1 = true := by
    rw [C1State.iterate]
    simp only [c1Ok_zero (idle_hard (hfold (List.range 4) _ hin))]
    rfl
  rw [hn', c1Pass]
  simp only [Nat.succ_eq_add_one, this]
  rfl

theorem spread_true (k : Nat) : ∀ (n : Nat) (l : List Bool), (∀ b ∈ l, b = true) → ∀ x ∈ spreadOn k n l, x = true
  | _, [], _, x, h => by simp [spreadOn] at h
  | n, b :: l, hl, x, h => by
    rw [spreadOn, List.mem_cons] at h
    rcases h with rfl | h
    · simp [hl b (by simp)]
    · exact spread_true k _ l (fun c hc => hl c (by simp [hc])) x h

theorem mem_cut {α : Type} {l : List α} {i : Int} {n : Nat} {y : α} (h : some y ∈ cut l i n) : y ∈ l := by
  simp only [cut, List.mem_append, List.mem_replicate, reduceCtorEq, and_false, false_or, or_false, List.mem_map,
    Option.some.injEq, exists_eq_right] at h
  exact List.mem_of_mem_drop (List.mem_of_mem_take h)

/-- A channel that has heard nothing but flagged bits. -/
def AllRaw (r : RChan) : Prop := ∀ g ∈ r.heard, ∀ h ∈ r.bitsOf g, h.raw = true

theorem look_flagged {r : RChan} (hr : AllRaw r) {ext n len : Nat} {j : Int} :
    ∀ x ∈ r.look ext n j len, (x.map (·.2)).getD true = true := by
  intro x hx
  cases x with
  | none => rfl
  | some y =>
    rw [RChan.look] at hx
    split at hx
    · simp [List.mem_replicate] at hx
    · rename_i g hg
      have hm := mem_cut hx
      rw [List.mem_reverse] at hm
      obtain ⟨a, b⟩ := y
      have hb := (List.of_mem_zip hm).2
      have hb := List.mem_of_mem_drop hb
      obtain ⟨u, hu, v, -, rfl⟩ := mem_zipWith_pair _ _ _ _ hb
      have hall : ∀ z ∈ (r.bitsOf g).map (·.raw), z = true := by
        intro z hz
        obtain ⟨h, hh, rfl⟩ := List.mem_map.1 hz
        exact hr g (List.mem_of_find?_eq_some hg) h hh
      simp [spread_true ext 0 _ hall u hu]

theorem copyBits_flagged {r : RChan} (hr : AllRaw r) (ext : Nat) (p : CourseAt) :
    ∀ x ∈ r.copyBits ext p, (x.map (·.2)).getD true = true := by
  have hs : ∀ k len, ∀ x ∈ r.span ext p k len, (x.map (·.2)).getD true = true := by
    intro k len x hx
    simp only [RChan.span, List.mem_append] at hx
    rcases hx with hx | hx
    · exact look_flagged hr x hx
    · split at hx
      · exact look_flagged hr x hx
      · simp at hx
  intro x hx
  rcases List.mem_append.1 hx with hx | hx
  · exact hs _ _ x hx
  · exact hs _ _ x hx

/-- Every LLR of a copy whose bits are all flagged is 0 (R122). -/
theorem llrs_flagged (s : State) (c : Nat) (f : Framed) (ext : List Rat) (hr : AllRaw (s.rchan c)) :
    ∀ x ∈ s.passLlrs c f ext, x = 0 := by
  intro x hx
  simp only [State.passLlrs, List.mem_map] at hx
  obtain ⟨y, -, rfl⟩ := hx
  have hf := copyBits_flagged hr (s.defExt c) f.place
  generalize (s.rchan c).copyBits (s.defExt c) f.place = l at hf
  have : ∀ k, ((l.map fun x => (x.map (·.2)).getD true).toArray.getD k true) = true := by
    intro k
    by_cases hk : k < (l.map fun x => (x.map (·.2)).getD true).toArray.size
    · rw [Array.getD_eq_getD_getElem?, Array.getElem?_eq_getElem hk]
      have := Array.getElem_mem hk
      simp only [List.mem_toArray, List.mem_map] at this
      obtain ⟨z, hz, he⟩ := this
      rw [Option.getD_some, ← he]
      exact hf z hz
    · rw [Array.getD_eq_getD_getElem?, Array.getElem?_eq_none (by omega)]
      rfl
  simp [this]

/-- A copy, of the course that lies behind a resume mark. -/
def copy1 : Framed := { hdr := 0, part1Lost := false, erased := false, wrap := 0, lpos := 0 }
/-- A channel that has heard 9,804 flagged bits of one segment, with that copy to decode. -/
def wholeChan : RChan :=
  { count := 9804, framed := [copy1], heard := [{ num := 0, start := 0, bits := List.replicate 9804 { raw := true } }] }
/-- Channel 0 so. -/
def wholeCopy : State := { rchans := [(0, wholeChan)] }

theorem wholeCopy_held : wholeCopy.copyHeld 0 copy1.place = true := by decide +kernel

/-- C1 passes a held copy whose bits are all flagged. -/
theorem decode_flagged (s : State) (c : Nat) (f : Framed) (he : f.erased = false) (hr : AllRaw (s.rchan c))
    (hk : min (s.passIters 0) (s.fld F.FMT_CODE_CTL.C1_MAX_IT) ≠ 0) (hh : s.copyHeld c f.place = true) :
    (s.decodeCopy c f []).2.isSome = true := by
  have hc := c1_of_zeros ((s.fld F.FMT_CODE_CTL.C1_SCALE : Rat) / 16) _ _ (llrs_flagged s c f [] hr) hk
  have hs : s.hear c ([] : List Byte) = s := by simp [State.hear]
  obtain ⟨n, hn⟩ := Nat.exists_eq_succ_of_ne_zero (show max 1 (s.fld F.RDC_ITER_CTL.PASSES) ≠ 0 by omega)
  rw [State.decodeCopy, he, if_neg (by decide), hn, State.decodePasses]
  simp only [List.headD_nil, hs, hh, Bool.not_true, Bool.false_eq_true, if_false]
  generalize c1Pass ((s.fld F.FMT_CODE_CTL.C1_SCALE : Rat) / 16) C1State.start
    (min (s.passIters 0) (s.fld F.FMT_CODE_CTL.C1_MAX_IT)) (s.passLlrs c f []) = p at hc ⊢
  obtain ⟨d, found⟩ := p
  cases found with
  | none => simp at hc
  | some r => rfl

theorem wholeCopy_raw : AllRaw (wholeCopy.rchan 0) := by
  have h0 : wholeCopy.rchan 0 = wholeChan := rfl
  rw [h0]
  intro g hg h hh
  rw [wholeChan, List.mem_singleton] at hg
  subst hg
  rw [RChan.bitsOf, List.mem_append] at hh
  rcases hh with hh | hh
  · have hy : wholeChan.young = [] := rfl
    rw [hy, ite_self] at hh
    exact absurd hh List.not_mem_nil
  · rw [List.eq_of_mem_replicate hh]

theorem witness_decode_passes : (wholeCopy.decodeCopy 0 copy1 []).2.isSome = true :=
  decode_flagged _ _ _ rfl wholeCopy_raw (by decide +kernel) wholeCopy_held

/-- What C1_DECODE of a copy that has been heard turns on besides, and of one that the sample history no longer holds. -/
theorem witness_C1Decode :
    let lost := { wholeCopy with rchans := [(0, { wholeChan with heard := [], count := 30000 })] }
    (wholeCopy.canonical = true ∧ (wholeCopy.rchan 0).framed = [copy1] ∧ copy1.erased = false ∧ wholeCopy.copyHeard 0 copy1.place = true) ∧
    (lost.canonical = true ∧ (lost.rchan 0).framed = [copy1] ∧ lost.listens 0 = false ∧ lost.copyHeld 0 copy1.place = false ∧
      (lost.decodeCopy 0 copy1 []).2 = none) ∧
    ((lost.setFld F.RDC_CH_CTL.EN 1 0).listens 0 = true ∧ (lost.setFld F.RDC_CH_CTL.EN 1 0).copyHeard 0 copy1.place = false) := by
  decide +kernel

/-! ## A yealm whose courses have all been read, and one of which a group is missing -/

/-- The header of course (g, i) of yealm 5, but for its CRC. -/
def hdr5 (g i : Nat) : W64 := BitVec.ofNat 64 (5 * 2 ^ 36 + g * 2 ^ 30 + i * 2 ^ 22)
/-- A passing copy of that course, all zeros. -/
def copy5 (g i : Nat) : Copy := { chan := g, hdr := hdr5 g i, pass := true, corr := 0, data := noCourse, order := 0 }
/-- One valid seal, of yealms 1 to 8. -/
def seal8 : SealRec :=
  { seq := 0, first := 1, last := 8, skip := 0, idxFirst := 0, idxCount := 0, flags := 0, wrap := 0, lpos := 6500, crc := 0, selector := 0,
    ends := [(0, 1000000000)] }
/-- FMT with copies under that seal. -/
def withCopies (l : List Copy) : State := { fmt := { chain := [seal8], copies := l } }
/-- Every course of yealm 5. -/
def all5 : List Copy := (List.range 64).flatMap fun g => (List.range 240).map fun i => copy5 g i

theorem hdr5_nat {g i : Nat} (hg : g < 64) (hi : i < 240) : (hdr5 g i).toNat = 5 * 2 ^ 36 + g * 2 ^ 30 + i * 2 ^ 22 := by
  simp only [hdr5, BitVec.toNat_ofNat]
  omega

theorem alive5 (l : List Copy) (g i : Nat) : (withCopies l).copyAlive (copy5 g i) = true := by
  have hp : placeOn seal8.ends g = 1000000000 := by
    rw [placeOn]
    split
    · rename_i p h
      change (match g == 0 with | true => some 1000000000 | false => none) = some p at h
      split at h
      · exact (Option.some.inj h).symm
      · exact absurd h (by simp)
    · rfl
  have ha : ∀ y c p, absentAt y c p [] [seal8] = false := fun _ _ _ => rfl
  have hc : (copy5 g i).chan = g := rfl
  change (decide ((copy5 g i).place < placeOn seal8.ends (copy5 g i).chan) && !absentAt _ _ _ [] [seal8]) = true
  have hl : (copy5 g i).place = tapePlace 0 (lposSeg 0 0) 0 := rfl
  rw [ha, hc, hp, hl]
  decide +kernel

theorem copies_mem {l : List Copy} {g i : Nat} (hg : g < 64) (hi : i < 240) (h : copy5 g i ∈ l) :
    copy5 g i ∈ (withCopies l).copiesOf 5 := by
  refine List.mem_filter.2 ⟨h, ?_⟩
  rw [alive5]
  simp only [copy5, hdrYealm, hdrIndex, hdr5_nat hg hi]
  simp
  omega

/-- A course of which some copy is all zeros is taken as zeros, when no copy is anything else. -/
theorem course_zero {l : List Copy} {g i : Nat} (hz : ∀ k ∈ l, k.data = noCourse) {k : Copy} (hk : k ∈ l)
    (hg : hdrGroup k.hdr = g) (hi : hdrIndex k.hdr = i) : (courseCopy l g i).map (fun k => k.data) = some noCourse := by
  have hm : k ∈ l.filter fun k => hdrGroup k.hdr == g && hdrIndex k.hdr == i := List.mem_filter.2 ⟨hk, by simp [hg, hi]⟩
  have later : ∀ a b : Copy, a.data = noCourse → b.data = noCourse → (laterCopy a b).data = noCourse := by
    intro a b ha hb
    unfold laterCopy
    dsimp only
    split
    · exact hb
    · split
      · exact ha
      · split
        · exact hb
        · exact ha
  have fold : ∀ (ks : List Copy) (a : Copy), a.data = noCourse → (∀ x ∈ ks, x.data = noCourse) →
      (ks.foldl laterCopy a).data = noCourse := by
    intro ks
    induction ks with
    | nil => exact fun a ha _ => ha
    | cons x ks ih => exact fun a ha hx => ih _ (later a x ha (hx x (by simp))) fun y hy => hx y (by simp [hy])
  unfold courseCopy
  split
  · rename_i h
    rw [h] at hm
    simp at hm
  · rename_i a ks h
    have hall : ∀ x ∈ a :: ks, x.data = noCourse := fun x hx => hz x (List.mem_filter.1 (h ▸ hx)).1
    simp [fold ks a (hall a (by simp)) fun x hx => hall x (by simp [hx])]

theorem gfMul_zero : ∀ j < 16, gfMul 0 (gfPow j) ^^^ 0 = 0 := by decide +kernel

theorem zero_codeword (w : List Byte) (hw : ∀ x ∈ w, x = 0) : rsDecode 16 w [] = some (w, 0) := by
  have fold : ∀ j < 16, ∀ l : List Byte, (∀ x ∈ l, x = 0) → l.foldl (fun v s => gfMul v (gfPow j) ^^^ s) 0 = 0 := by
    intro j hj l
    induction l with
    | nil => intro _; rfl
    | cons x l ih =>
      intro hl
      rw [List.foldl_cons, hl x (by simp), gfMul_zero j hj]
      exact ih fun y hy => hl y (by simp [hy])
  unfold rsDecode
  have hs : (rsSyndromes 16 w).all (· == 0) = true := by
    rw [List.all_eq_true]
    intro x hx
    obtain ⟨j, hj, rfl⟩ := List.mem_map.1 hx
    exact beq_iff_eq.2 (fold j (List.mem_range.1 hj) w hw)
  rw [if_neg (by decide)]
  dsimp only
  rw [if_pos hs]

/-- Zero courses decode. -/
theorem c2Group_zero (rows : List (Option (List Byte))) (hn : rows.length = 240) (h : ∀ r ∈ rows, r = some noCourse) :
    (c2Group rows).2.1 = [] := by
  have he : ((List.range 240).filter fun i => (rows.getD i none).isNone) = [] := by
    rw [List.filter_eq_nil_iff]
    intro i hi
    have hi : i < rows.length := by rw [hn]; exact List.mem_range.1 hi
    rw [List.getD_eq_getElem?_getD, List.getElem?_eq_getElem hi, Option.getD_some, h _ (List.getElem_mem hi)]
    decide
  have hw : ∀ b, ∀ x ∈ rows.map fun r => (r.getD noCourse).getD b 0, x = 0 := by
    intro b x hx
    obtain ⟨r, hr, rfl⟩ := List.mem_map.1 hx
    rw [h r hr, Option.getD_some, List.getD_eq_getElem?_getD]
    cases hb : noCourse[b]? with
    | none => rfl
    | some v => exact List.eq_of_mem_replicate (List.mem_of_getElem? hb)
  unfold c2Group
  dsimp only
  rw [he, List.filter_eq_nil_iff]
  intro b hb
  rw [List.getD_eq_getElem?_getD, List.getElem?_map, List.getElem?_range (List.mem_range.1 hb), Option.map_some, Option.getD_some,
    zero_codeword _ (hw b)]
  exact Bool.false_ne_true

/-- One group of C2 over a yealm, from what its decoding gave, as its fold adds it. -/
def c2Step (n : Nat) (res : Nat → List (List Byte) × List Nat × Nat) (lost : Nat → Nat) (acc : C2Out) (g : Nat) : C2Out :=
  { dec := { acc.dec with
      data := (res g).1.zipIdx.foldl (fun (m : SMap (List Byte)) e => m.set (fun _ => noCourse) (n * e.2 + g) e.1) acc.dec.data
      failed := acc.dec.failed ++ (res g).2.1.map fun b => 1024 * g + b }
    erased := acc.erased + lost g
    corrected := acc.corrected + (res g).2.2 }

/-- The rows of a group. -/
def rowsOf (pick : Nat → Nat → Option Copy) (g : Nat) : List (Option (List Byte)) :=
  (List.range 240).map fun i => (pick g i).map fun k => k.data

theorem c2Yealm_fold (y n sel : Nat) (mixed : Bool) (pick : Nat → Nat → Option Copy) :
    c2Yealm y n sel mixed pick =
      (List.range n).foldl (c2Step n (fun g => c2Group (rowsOf pick g)) fun g => ((rowsOf pick g).filter fun r => r.isNone).length)
        { dec := ⟨y, n, sel, [], [], mixed⟩, erased := 0, corrected := 0 } := by
  unfold c2Yealm
  dsimp only
  refine congrArg (fun f => List.foldl f _ (List.range n)) ?_
  funext acc g
  unfold c2Step rowsOf
  dsimp only

theorem c2_fold (n : Nat) (res : Nat → List (List Byte) × List Nat × Nat) (lost : Nat → Nat) :
    ∀ (l : List Nat), (∀ g ∈ l, (res g).2.1 = []) → ∀ acc : C2Out, acc.dec.failed = [] →
      (l.foldl (c2Step n res lost) acc).dec.failed = [] := by
  intro l
  induction l with
  | nil => exact fun _ acc h => h
  | cons g l ih =>
    intro hl acc h
    refine ih (fun g' hg' => hl g' (by simp [hg'])) _ ?_
    change acc.dec.failed ++ (res g).2.1.map _ = []
    rw [h, hl g (by simp)]
    rfl

theorem c2_fold_fails (n : Nat) (res : Nat → List (List Byte) × List Nat × Nat) (lost : Nat → Nat) (g : Nat)
    (hb : (res g).2.1 ≠ []) :
    ∀ (l : List Nat) (acc : C2Out), acc.dec.failed ≠ [] ∨ g ∈ l → (l.foldl (c2Step n res lost) acc).dec.failed ≠ [] := by
  intro l
  induction l with
  | nil => exact fun acc h => h.elim id (by simp)
  | cons x l ih =>
    intro acc h
    refine ih _ ?_
    change acc.dec.failed ++ (res x).2.1.map _ ≠ [] ∨ _
    rcases h with h | h
    · exact .inl fun e => h (List.append_eq_nil_iff.1 e).1
    · rcases List.mem_cons.1 h with rfl | h
      · exact .inl fun e => hb (List.map_eq_nil_iff.1 (List.append_eq_nil_iff.1 e).2)
      · exact .inr h

/-- A group none of whose courses was read fails. -/
theorem group1_missing :
    (c2Group (rowsOf (courseCopy [copy5 0 0]) 1)).2.1 ≠ [] := by
  have : decide ((c2Group (rowsOf (courseCopy [copy5 0 0]) 1)).2.1 = []) = false := by
    decide +kernel
  exact of_decide_eq_false this

/-- What C2 makes of yealm 5. -/
theorem runC2_5 (s : State) (h : s.copiesOf 5 ≠ []) : (s.runC2 5).2 =
    (c2Yealm 5 (selectorN (selectorOf (s.copiesOf 5))) (selectorOf (s.copiesOf 5)) false (courseCopy (s.copiesOf 5))).dec := by
  have he : (s.copiesOf 5).isEmpty = false := by simpa using h
  rw [State.runC2, State.c2Of, if_neg (by decide)]
  dsimp only
  rw [he, if_neg (by decide)]

theorem witness_yealm_whole : (withCopies all5).canonical = true ∧ (withCopies all5).copiesOf 5 ≠ [] ∧
    (withCopies all5).yealmDelivered 5 = false ∧ ((withCopies all5).runC2 5).2.failed = [] := by
  have mem : ∀ g i, g < 64 → i < 240 → copy5 g i ∈ (withCopies all5).copiesOf 5 := fun g i hg hi =>
    copies_mem hg hi (List.mem_flatMap.2 ⟨g, List.mem_range.2 hg, List.mem_map.2 ⟨i, List.mem_range.2 hi, rfl⟩⟩)
  have zero : ∀ k ∈ (withCopies all5).copiesOf 5, k.data = noCourse := by
    intro k hk
    obtain ⟨g, -, hk⟩ := List.mem_flatMap.1 (List.mem_filter.1 hk).1
    obtain ⟨i, -, rfl⟩ := List.mem_map.1 hk
    rfl
  refine ⟨rfl, List.ne_nil_of_mem (mem 0 0 (by omega) (by omega)), rfl, ?_⟩
  have h : ∀ n, n ≤ 64 → ∀ sel, (c2Yealm 5 n sel false (courseCopy ((withCopies all5).copiesOf 5))).dec.failed = [] := by
    intro n hn sel
    rw [c2Yealm_fold]
    refine c2_fold n _ _ (List.range n) ?_ _ rfl
    intro g hg
    have hg : g < 64 := by have := List.mem_range.1 hg; omega
    refine c2Group_zero _ (by rw [rowsOf, List.length_map, List.length_range]) ?_
    intro r hr
    obtain ⟨i, hi, rfl⟩ := List.mem_map.1 hr
    have hi := List.mem_range.1 hi
    refine course_zero zero (mem g i hg hi) ?_ ?_
    · simp only [copy5, hdrGroup, hdr5_nat hg hi]; omega
    · simp only [copy5, hdrIndex, hdr5_nat hg hi]; omega
  rw [runC2_5 _ (List.ne_nil_of_mem (mem 0 0 (by omega) (by omega)))]
  refine h _ ?_ _
  unfold selectorN
  split <;> omega

theorem witness_yealm_part : (withCopies [copy5 0 0]).canonical = true ∧ (withCopies [copy5 0 0]).copiesOf 5 ≠ [] ∧
    (withCopies [copy5 0 0]).yealmDelivered 5 = false ∧ ((withCopies [copy5 0 0]).runC2 5).2.failed ≠ [] := by
  have one : (withCopies [copy5 0 0]).copiesOf 5 = [copy5 0 0] := by decide +kernel
  refine ⟨by decide +kernel, by rw [one]; exact List.cons_ne_nil _ _, rfl, ?_⟩
  rw [runC2_5 _ (by rw [one]; exact List.cons_ne_nil _ _), one, c2Yealm_fold]
  refine c2_fold_fails _ _ _ 1 ?_ _ _ (.inr (by decide +kernel))
  exact group1_missing

/-! ## The same: reading and writing tape, the rest -/

/-- A course header that passes its CRC, and another. -/
def hdrX : W64 := 0x012D687B42817C91
def hdrY : W64 := courseHeader 1234567 0 0 0 0
/-- A header as its bits lie on tape, scrambled, with the bit after each word (R83, R86). -/
def headerBits (h : W64) : List Bool :=
  let l := bitsOf 64 (h ^^^ headerMask).toNat
  l.take 32 ++ [false] ++ l.drop 32 ++ [false]
/-- A segment in progress of which the first 1,044 bits of a course behind its resume mark have been heard, with the given marks and
headers. -/
def courseSeg (first second : Bool) (a b : W64) (heard : Nat := 1044) : HeardSeg :=
  let mark (ok : Bool) (l : List Bool) := if ok then l else List.replicate 32 false
  let l := List.replicate 88 false ++ mark first firstPattern ++ headerBits a ++ List.replicate 792 false ++
    mark second secondPattern ++ headerBits b ++ List.replicate 8 false
  { num := 0, start := 0, bits := heardBits (l.take (40 + heard)) }
/-- Channel 0 running with such a segment, the course predicted there. -/
def framing (first second : Bool) (a b : W64) : State := reading { heard := [courseSeg first second a b], pred := some (0, 0) }
/-- What the framing table sees of it: both marks, and the headers that pass. -/
def framed (s : State) : Option MarkCand × Option MarkCand × Option W64 × Option W64 :=
  let r := s.rchan 0
  let q := courseAt (0, 0) 0
  let m1 := r.firstMark 16 q 8 3
  let a := m1.bind fun x => headerPasses (r.header 16 (q.byFirst x.off) 80)
  let m2 := r.findSecond 16 q m1 a.isSome
  (m1, m2, a, m2.bind fun z => headerPasses (r.header 16 (q.bySecond z.off) 970))
/-- A mark at its predicted place, without an error. -/
def mark0 : MarkCand := ⟨0, 0, 32⟩

theorem witness_CourseFrame :
    let s := reading {}
    let hunt := s.setFld F.RDC_CH_STAT.HUNT 1 0
    let early := reading { heard := [begun], pred := some (0, 0) }
    (State.reset.chanOn 0 = false ∧ s.canonical = true ∧ s.chanOn 0 = true ∧ (s.rchan 0).calOff = false ∧ s.defExt 0 = 16 ∧
      s.flag F.RDC_CH_STAT.HUNT 0 = false ∧ (s.rchan 0).framed = [] ∧ (s.rchan 0).pred = none) ∧
    ((reading { calOff := true }).canonical = true ∧ ((reading { calOff := true }).rchan 0).pred = none ∧
      (reading { calOff := true, pred := some (0, 0) }).canonical = true) ∧
    (hunt.canonical = true ∧ hunt.flag F.RDC_CH_STAT.HUNT 0 = true ∧ (hunt.rchan 0).hunted 16 = none) ∧
    (early.canonical = true ∧ (early.rchan 0).courseDue (0, 0) = false) := by decide +kernel

theorem witness_CourseFrame_both :
    (framing true true hdrX hdrX).canonical = true ∧ ((framing true true hdrX hdrX).rchan 0).courseDue (0, 0) = true ∧
      framed (framing true true hdrX hdrX) = (some mark0, some mark0, some hdrX, some hdrX) ∧
      framed (framing true true hdrX hdrY) = (some mark0, some mark0, some hdrX, some hdrY) ∧ hdrX ≠ hdrY ∧
      framed (framing true true hdrX 0) = (some mark0, some mark0, some hdrX, none) := by decide +kernel

theorem witness_CourseFrame_one :
    ((framing true false hdrX 0).rchan 0).courseDue (0, 0) = true ∧ framed (framing true false hdrX 0) = (some mark0, none, some hdrX, none) ∧
      framed (framing true true 0 hdrX) = (some mark0, some mark0, none, some hdrX) ∧
      framed (framing false true 0 hdrX) = (none, some mark0, none, some hdrX) := by decide +kernel

theorem witness_CourseFrame_none :
    framed (framing true true 0 0) = (some mark0, some mark0, none, none) ∧ framed (framing false true 0 0) = (none, some mark0, none, none) ∧
      framed (framing true false 0 0) = (some mark0, none, none, none) := by decide +kernel

/-- A course that hunt accepts by header A, header B not heard. -/
theorem witness_CourseFrame_hunt :
    let r : RChan := { heard := [courseSeg true true hdrX 0 1000] }
    let s := (reading r).setFld F.RDC_CH_STAT.HUNT 1 0
    s.canonical = true ∧ s.rchan 0 = r ∧ s.flag F.RDC_CH_STAT.HUNT 0 = true ∧ r.hunted 16 = some ((0, 0), mark0, mark0) ∧
      headerPasses (r.header 16 (courseAt (0, 0) 0) 80) = some hdrX ∧
      headerPasses (r.header 16 ((courseAt (0, 0) 0).bySecond mark0.off) 970) = none := by decide +kernel

/-- FMT with what it holds and a class 6 buffer of its own (handle 0xC0000000). -/
def formatter (f : Fmt) : State :=
  ((({ bufs := [(12582912, { owner := 0x12 })], fmt := f } : State).setFld F.POOL_CLASS.EN 1 6).setFld F.POOL_COUNT.COUNT 1 6).setFld
    F.POOL_CLASS.BASE 4096 6
/-- The same with RUN, adaptive mode, every channel enabled and boot step S8 done. -/
def writer (f : Fmt) : State :=
  let s := (((formatter f).setFld F.WRC_CTL.RUN 1).setFld F.RDC_CFG.MODE 1).setFld F.BOOT_STAT.DONE 256
  (List.range 64).foldl (fun s c => s.setFld F.RDC_CH_CTL.EN 1 c) s
/-- With group 3 dark. -/
def darkened (s : State) : State := (s.setFld F.RDC_CFG.DARK_EN 1).setFld F.RDC_CFG.DARK_GRP 3

theorem witness_CourseReading :
    let x := copy1
    let r (f : Framed) := reading { framed := [f] }
    let d : Decoded := ⟨5, 64, 0, [], [], false⟩
    let c (arg y : Nat) (a : W64) := command 2 4 arg a noAddress y 0
    let s (f : Fmt) (m : Cmd) := queued (formatter { f with chain := [seal8] }) m
    let held (y : Nat) : Fmt := { decoded := [d], waiting := [y] }
    ((r x).canonical = true ∧ ((r x).rchan 0).framed = [x] ∧ x.erased = false ∧ (r { x with erased := true }).canonical = true) ∧
    ((withCopies []).copiesOf 5 = [] ∧ (withCopies []).seenOf 5 = [] ∧ 5 ∉ (withCopies []).fmt.waiting ∧ ({ fmt := { waiting := [5] } } : State).canonical = true ∧
      ({ fmt := { decoded := [d] } } : State).yealmDelivered 5 = true) ∧
    (Starts (s {} (c 256 5 buf6)) 2 0 4 (c 256 5 buf6) ∧ (dArg (c 256 5 buf6).desc).testBit 8 ≠ decide (quadBase ≤ 5)) ∧
    (Starts (s {} (c 0 9 buf6)) 2 0 4 (c 0 9 buf6) ∧ ((s {} (c 0 9 buf6)).sealOf 9).isNone = true) ∧
    (Starts (s (held 6) (c 0 5 buf6)) 2 0 4 (c 0 5 buf6) ∧ (dArg (c 0 5 buf6).desc).testBit 8 = decide (quadBase ≤ 5) ∧
      ((s (held 6) (c 0 5 buf6)).sealOf 5).isSome = true ∧ (s (held 6) (c 0 5 buf6)).decodedOf 5 = some d ∧
      dB (c 0 5 buf6).desc = noAddress ∧ (s (held 6) (c 0 5 buf6)).yealmCheck (c 0 5 buf6) buf6 (245760 * 64) true = none ∧
      (s (held 6) (c 0 5 buf1)).yealmCheck (c 0 5 buf1) buf1 (245760 * 64) true ≠ none) ∧
    ((s (held 6) (c 0 6 buf6)).decodedOf 6 = none ∧ 6 ∈ (s (held 6) (c 0 6 buf6)).fmt.waiting ∧
      ((s (held 6) (c 0 6 buf6)).sealOf 6).isSome = true) ∧
    ((s (held 6) (c 0 7 buf6)).decodedOf 7 = none ∧ 7 ∉ (s (held 6) (c 0 7 buf6)).fmt.waiting ∧
      (s (held 6) (c 0 7 buf6)).copiesOf 7 = [] ∧ (s (held 6) (c 0 7 buf6)).seenOf 7 = [] ∧ ((s (held 6) (c 0 7 buf6)).sealOf 7).isSome = true) := by
  unfold Starts; decide +kernel

theorem witness_Encode :
    let c (arg : Nat) (a b : W64) := command 2 1 arg a b 0 0
    let s (m : Cmd) := queued (formatter {}) m
    let quad := 16 + 256
    (Starts (s (c 17 buf6 0)) 2 0 1 (c 17 buf6 0) ∧ Starts (s (c quad buf6 0)) 2 0 1 (c quad buf6 0)) ∧
    ((s (c quad buf6 0)).engCheckW (c quad buf6 0) buf6 (245760 * 16) = none ∧
      (((s (c quad buf6 0)).start (c quad buf6 0)).taRead buf6 (229376 * 16)).2.2 = false ∧
      (s (c quad buf1 0)).engCheckW (c quad buf1 0) buf1 (245760 * 16) ≠ none) ∧
    (let p := (s (c quad buf6 0)).setTileRec 4096 { fill := 4096, poison := true };
      Starts p 2 0 1 (c quad buf6 0) ∧ p.engCheckW (c quad buf6 0) buf6 (245760 * 16) = none ∧
        ((p.start (c quad buf6 0)).taRead buf6 (229376 * 16)).2.2 = true) ∧
    (s (c 60 buf6 0)).engCheckW (c 60 buf6 0) 0 (245760 * 60) ≠ none := by
  unfold Starts; decide +kernel

/-- The formatter with a class 7 buffer as well (handle 0xE0000000), for the C3 accumulator. -/
def accumulator (f : Fmt) : State :=
  ((({ formatter f with bufs := [(12582912, { owner := 0x12 }), (14680064, { owner := 0x12 })] }.setFld F.POOL_CLASS.EN 1 7).setFld
    F.POOL_COUNT.COUNT 1 7).setFld F.POOL_CLASS.BASE 8192 7)
/-- The tile address of that buffer. -/
def buf7 : W64 := 0xE000000000000000

theorem witness_EncodeC3 :
    let c := command 2 1 (60 + 128) buf6 buf7 3 0
    let s := queued (accumulator {}) c
    Starts s 2 0 1 c ∧ s.yealmCheck c buf6 (245760 * 60) true = none ∧ s.accCheck c buf7 (245760 * 60) = none ∧
      s.accCheck c (mkTa (taHandle buf7) (taOff buf7 + 0x1000000)) (245760 * 60) = none ∧
      ((s.start c).taRead buf6 (229376 * 60)).2.2 = false := by
  unfold Starts; decide +kernel

/-- Adding into accumulators that an earlier member began, and into ones whose bytes are marked. -/
theorem witness_EncodeC3_adds :
    let c := command 2 1 60 buf6 buf7 3 0
    let b' := mkTa (taHandle buf7) (taOff buf7 + 0x1000000)
    let s := queued ((accumulator {}).setFld F.TIL_CTL.BUSERR_MODE 0) c
    let p := queued (((accumulator {}).setTileRec 8192 { fill := 4096, poison := true }).setFld F.TIL_CTL.BUSERR_MODE 1) c
    (Starts s 2 0 1 c ∧ s.yealmCheck c buf6 (245760 * 60) true = none ∧ s.accCheck c buf7 (245760 * 60) = none ∧
      s.accCheck c b' (245760 * 60) = none ∧ s.busErr = false ∧ ((s.start c).taRead buf6 (229376 * 60)).2.2 = false) ∧
    (Starts p 2 0 1 c ∧ p.yealmCheck c buf6 (245760 * 60) true = none ∧ p.accCheck c buf7 (245760 * 60) = none ∧
      p.accCheck c b' (245760 * 60) = none ∧ p.busErr = true ∧ ((p.start c).taRead buf7 (245760 * 60)).2.2 = true) := by
  unfold Starts; decide +kernel

/-- A seal record of commit sequence q, yealms 1 to 8. -/
def record (q : Nat) : List Byte := patch (patch (patch (List.replicate 1024 0) 8 (leBytes 8 q)) 16 (leBytes 4 1)) 20 (leBytes 4 8)

theorem witness_Write :
    let c (arg y : Nat) (a : W64) := command 2 2 arg a 0 y 0
    let s := writer {}
    let q (s : State) (m : Cmd) := queued s m
    let m := c 64 5 buf6
    (Starts (q s (c 63 5 buf6)) 2 0 2 (c 63 5 buf6) ∧ 63 ≠ s.activeList.length ∧ Starts (q s (c 64 (2 ^ 28) buf6)) 2 0 2 (c 64 (2 ^ 28) buf6)) ∧
    (Starts (q s m) 2 0 2 m ∧ (q s m).activeList.length = 64 ∧ (q s m).yealmCheck m buf6 (245760 * 64) false = none ∧ MayWrite (q s m) ∧
      (q s m).selector = some (0, s.fmt.darkTable) ∧ (((q s m).start m).taRead buf6 (245760 * 64)).2.2 = false) ∧
    ((q s (c 64 5 buf1)).yealmCheck (c 64 5 buf1) buf1 (245760 * 64) false ≠ none) ∧
    (Starts (q (formatter {}) m) 2 0 2 m ∧ ¬MayWrite (q (formatter {}) m)) := by
  unfold Starts MayWrite; decide +kernel

theorem witness_Write_dark :
    let c (arg y : Nat) (a : W64) := command 2 2 arg a 0 y 0
    let s := writer {}
    let q (s : State) (m : Cmd) := queued s m
    let dark := darkened s
    let full := darkened (writer { darkTable := [0xFF, 0, 0, 0, 0, 0, 0, 0] })
    let quad := c (16 + 256) 0x8000001 buf6
    (let e := c 60 5 buf6;
      Starts (q full e) 2 0 2 e ∧ full.activeList.length = 60 ∧ (q full e).yealmCheck e buf6 (245760 * 60) false = none ∧ MayWrite (q full e) ∧
        (q full e).selector = none ∧ (q dark e).selector ≠ none) ∧
    (Starts (q s quad) 2 0 2 quad ∧ (q s quad).yealmCheck quad buf6 (245760 * 16) false = none ∧
      (((q s quad).start quad).taRead buf6 (245760 * 16)).2.2 = false) ∧
    (let p := (q s quad).setTileRec 4096 { fill := 4096, poison := true };
      Starts p 2 0 2 quad ∧ p.yealmCheck quad buf6 (245760 * 16) false = none ∧ ((p.start quad).taRead buf6 (245760 * 16)).2.2 = true) := by
  unfold Starts MayWrite; decide +kernel

theorem witness_Seal :
    let c := command 2 3 0 buf6 0 0 0
    let at' (s : State) (q : Nat) : State := queued ((s.setTileRec 4096 { fill := 1024 }).memStore (4096 * 4096) (record q)) c
    let s := at' (writer {}) 0
    let p := (queued (writer {}) c).setTileRec 4096 { fill := 1024, poison := true }
    let r (s : State) := (s.start c).taRead buf6 1024
    (Starts (queued (writer {}) (command 2 3 0 buf1 0 0 0)) 2 0 3 (command 2 3 0 buf1 0 0 0) ∧
      (queued (writer {}) (command 2 3 0 buf1 0 0 0)).engCheck (command 2 3 0 buf1 0 0 0) buf1 1024 ≠ none) ∧
    (Starts p 2 0 3 c ∧ p.engCheck c buf6 1024 = none ∧ (r p).2.2 = true) ∧
    (Starts (at' (writer {}) 1) 2 0 3 c ∧ (at' (writer {}) 1).engCheck c buf6 1024 = none ∧ (r (at' (writer {}) 1)).2.2 = false ∧
      recSeq (r (at' (writer {}) 1)).2.1 ≠ ((at' (writer {}) 1).txr.get (fun _ => 0) 0).toNat) ∧
    (Starts s 2 0 3 c ∧ s.engCheck c buf6 1024 = none ∧ (r s).2.2 = false ∧ recSeq (r s).2.1 = (s.txr.get (fun _ => 0) 0).toNat ∧
      s.groupEnded (r s).2.1 = none ∧ MayWrite s) ∧
    (let e := at' (writer { ended := [(5, St.MEDIA_LOST)] }) 0;
      Starts e 2 0 3 c ∧ e.engCheck c buf6 1024 = none ∧ e.groupEnded (r e).2.1 = some St.MEDIA_LOST) ∧
    (let n := at' (formatter {}) 0;
      Starts n 2 0 3 c ∧ n.engCheck c buf6 1024 = none ∧ n.groupEnded (r n).2.1 = none ∧ ¬MayWrite n) := by
  unfold Starts MayWrite
  refine ⟨?_, ?_, ?_, ?_, ?_, ?_⟩ <;> decide +kernel

/-! ### A format yealm as R69 lays it out -/

/-- The bytes of a format record with ridge protection that are not zero, and the rest but for its CRC-32C. -/
def formatHead : List Byte := (formatRecord 1 [] 0 []).take 72
def formatBody : List Byte := formatHead ++ List.replicate 436 0
/-- The record. -/
def formatBytes : List Byte := formatBody ++ leBytes 4 (crc32c formatBody).toNat
/-- The writer with the record at the start of the class 6 buffer, of which no more is filled. -/
def formatting (m : Cmd) : State := (queued ((writer {}).setTileRec 4096 { fill := 512 }) m).memStore (4096 * 4096) formatBytes

theorem formatBody_length : formatBody.length = 508 := by decide +kernel

theorem leNat_bytes4 (x : W32) : leNat (leBytes 4 x.toNat) = x.toNat := by
  have := x.isLt
  simp [leBytes, leNat]
  omega

theorem format_body_at : bytesAt formatBytes 0 508 = formatBody := by
  have h := formatBody_length
  simp [bytesAt, formatBytes, h, leBytes]

theorem bytes_zero : ∀ n, leBytes n 0 = List.replicate n 0
  | 0 => rfl
  | n + 1 => by rw [leBytes, Nat.zero_div, bytes_zero n]; rfl

/-- Serial and device of zeros make the record. -/
theorem format_made : bytesAt (formatRecord 1 (List.replicate 16 0) 0 (List.replicate 16 0)) 0 508 = formatBody := by
  have hh : formatHead.length = 72 := by decide +kernel
  have he : ∃ r, formatRecord 1 (List.replicate 16 0) 0 (List.replicate 16 0) = formatHead ++ leBytes 436 0 ++ r := ⟨_, rfl⟩
  obtain ⟨r, he⟩ := he
  have hz : (formatHead ++ leBytes 436 0).length = 508 := by rw [List.length_append, hh, bytes_zero, List.length_replicate]
  rw [he, bytesAt, List.drop_zero, List.take_append_of_le_length (by omega), List.take_of_length_le (by omega), hz, Nat.sub_self,
    List.replicate_zero, List.append_nil, bytes_zero, formatBody]

theorem format_whole : formatOk formatBytes = true := by
  have h := formatBody_length
  have hh : formatHead.length = 72 := by decide +kernel
  have hc : natAt formatBytes 508 4 = (crc32c formatBody).toNat := by
    have hd : bytesAt formatBytes 508 4 = leBytes 4 (crc32c formatBody).toNat := by
      simp [bytesAt, formatBytes, h, leBytes]
    rw [natAt, hd, leNat_bytes4]
  have hp : patch formatBody 48 (List.replicate 8 0xFF) = formatBody := by
    have h1 : formatHead.take 48 ++ List.replicate 8 0xFF ++ formatHead.drop 56 = formatHead := by decide +kernel
    rw [patch, formatBody, List.take_append_of_le_length (l₁ := formatHead) (i := 48) (by omega), List.length_replicate,
      List.drop_append_of_le_length (by omega), ← List.append_assoc, h1, List.take_of_length_le (Nat.le_refl _)]
  have hf : natAt formatBytes 48 1 = 0xFF ∧ natAt formatBytes 6 2 = 1 ∧ bytesAt formatBytes 8 16 = List.replicate 16 0 ∧
      natAt formatBytes 24 8 = 0 ∧ bytesAt formatBytes 56 16 = List.replicate 16 0 := by decide +kernel
  rw [formatOk, format_body_at, hc, hp, hf.1, hf.2.1, hf.2.2.1, hf.2.2.2.1, hf.2.2.2.2, format_made]
  simp

theorem slice_store {d : Nat → Byte} {m : SMap Byte} (hm : SMap.wf d m = true) (a : Nat) (l : List Byte) :
    (SMap.store d m a l).slice d a l.length = l := by
  have go : ∀ (M : SMap Byte) (n a : Nat), M.slice d a n = (List.range n).map fun k => M.get d (a + k) := by
    intro M n
    induction n with
    | zero => intro a; rfl
    | succ n ih =>
      intro a
      rw [SMap.slice, ih, List.range_succ_eq_map, List.map_cons, List.map_map]
      congr 1
      refine List.map_congr_left fun k _ => ?_
      simp only [Function.comp]
      congr 1
      omega
  rw [go]
  refine List.ext_getElem (by simp) fun k h1 h2 => ?_
  rw [List.getElem_map, List.getElem_range, SMap.get_store hm, if_pos (by omega), List.getD_eq_getElem?_getD,
    Nat.add_sub_cancel_left, List.getElem?_eq_getElem h2, Option.getD_some]

theorem blank_tiles (s : State) : ∀ l : List (Nat × Nat × Nat), (∀ e ∈ l, (s.tileRec e.1).fill = 0) →
    s.rangeBytes l = List.replicate (l.map fun e => e.2.2).sum 0
  | [], _ => rfl
  | e :: l, h => by
    have h0 : s.tileBytes e.1 e.2.1 e.2.2 = List.replicate e.2.2 0 := by
      simp [State.tileBytes, h e (by simp), State.memBytes, SMap.slice]
    have ih := blank_tiles s l fun x hx => h x (by simp [hx])
    rw [State.rangeBytes] at ih
    rw [State.rangeBytes, List.flatMap_cons, h0, ih, List.map_cons, List.sum_cons, ← List.replicate_append_replicate]

/-- The data of a format yealm that R69 lays out: a record that is whole, and zero after it. -/
theorem witness_Write_format :
    let m := command 2 2 (16 + 256) buf6 0 quadBase 0
    let s := formatting m
    Starts s 2 0 2 m ∧ s.yealmCheck m buf6 (245760 * 16) false = none ∧ MayWrite s ∧
      ((s.start m).taRead buf6 (245760 * 16)).2.2 = false ∧ s.taBytes buf6 0 512 = formatBytes ∧ formatOk formatBytes = true ∧
      s.taBytes buf6 0 3670016 = formatData formatBytes := by
  intro m s
  have hn : formatBytes.length = 512 := by simp [formatBytes, formatBody_length, leBytes]
  have ht : s.tiles = [(4096, { fill := 512 })] := by decide +kernel
  have hm : s.memBytes (4096 * 4096) 512 = formatBytes := by
    have h0 : ((writer {}).setTileRec 4096 { fill := 512 }).mem = [] := by decide +kernel
    have := slice_store (d := memDefault) (m := []) rfl (4096 * 4096) formatBytes
    rw [hn] at this
    simp only [s, formatting, State.memBytes, State.memStore, queued, h0, this]
  have h0 : s.tileBytes 4096 0 512 = formatBytes ∧ s.tileBytes 4096 0 4096 = formatBytes ++ List.replicate 3584 0 := by
    have hr : (s.tileRec 4096).fill = 512 := by rw [State.tileRec, ht]; rfl
    constructor <;> simp [-List.reduceReplicate, State.tileBytes, hr, hm]
  have hsp : s.spansOf (taHandle buf6) (taOff buf6 + 0) 3670016 =
      (4096, 0, 4096) :: (List.range 895).map fun k => (4097 + k, 0, 4096) := by decide +kernel
  have hs : s.spansOf (taHandle buf6) (taOff buf6 + 0) 512 = [(4096, 0, 512)] := by decide +kernel
  have hb : s.rangeBytes ((List.range 895).map fun k => (4097 + k, 0, 4096)) = List.replicate (895 * 4096) 0 := by
    rw [blank_tiles]
    · rw [List.map_map, Function.comp_def, List.map_const', List.sum_replicate_nat, List.length_range]
    · intro e he
      obtain ⟨k, -, rfl⟩ := List.mem_map.1 he
      have hk : 4097 + k ≠ 4096 ∧ ¬4097 + k < 4096 := by omega
      rw [State.tileRec, ht, SMap.get, SMap.find?, if_neg hk.1, if_neg hk.2]
      rfl
  refine ⟨⟨canonical_memStore _ _ _ (by decide +kernel), ?_⟩, by decide +kernel, by unfold MayWrite; decide +kernel, by decide +kernel,
    ?_, format_whole, ?_⟩
  · decide +kernel
  · rw [State.taBytes, hs, State.rangeBytes, List.flatMap_cons, h0.1, List.flatMap_nil, List.append_nil]
  · rw [State.taBytes, hsp, State.rangeBytes, List.flatMap_cons, h0.2]
    rw [State.rangeBytes] at hb
    have h5 : bytesAt formatBytes 0 512 = formatBytes := by simp [bytesAt, hn, List.take_of_length_le]
    rw [hb, formatData, h5, bytesAt, List.drop_zero, List.take_of_length_le (by omega), hn, List.append_assoc,
      List.replicate_append_replicate]

/-- A write of yealm 5 over 64 channels from the formatter's buffer. -/
def job5 : YealmJob := { cmd := command 2 2 64 buf6 0 5 0, yealm := 5, quad := false, n := 64, selector := 0 }
/-- The write channel placed, with what its channels hold. -/
def placed (s : State) (chans : SMap WChan := []) (wrap : Nat := 0) : State :=
  { s with wrc := { chans := chans, placed := true, wrap := wrap } }

theorem witness_YealmStart :
    let w (f : Fmt) (c : SMap WChan) (n : Nat) := placed { fmt := f } c n
    (State.reset.canonical = true ∧ Orderly State.reset ∧ State.reset.atBoundary = false) ∧
    (let s := w {} [(0, { rewind := some ([], 1) })] 0;
      Orderly s ∧ s.canonical = true ∧ s.atBoundary = true ∧ s.sealReady = none ∧ s.nextYealm = none ∧ s.sealWaits = false ∧
        0 ∈ s.activeList ∧ (s.wchan 0).rewind.isSome = true) ∧
    (let s := w {} [] 0; Orderly s ∧ s.atBoundary = true ∧ s.nextYealm = none ∧ ∀ e ∈ s.activeList, (s.wchan e).rewind = none) := by
  unfold Orderly; decide +kernel

theorem witness_YealmStart_next :
    let w (f : Fmt) (c : SMap WChan) (n : Nat) := placed { fmt := f } c n
    let j : Fmt := { jobs := [job5] }
    let again : YealmJob := { job5 with started := true, scheduled := some 0 }
    (let s := w j [] 0; Orderly s ∧ s.canonical = true ∧ s.atBoundary = true ∧ s.sealReady = none ∧ s.nextYealm = some job5 ∧
      s.segsLeft 170 = true) ∧
    (let s := w { jobs := [again] } [] 0; s.nextYealm = some again ∧ again.scheduled.isSome = true ∧ again.quad = false) := by
  unfold Orderly; decide +kernel

/-- Yealm 0x8000000, the format yealm, next, while other courses are still to be judged and once they have been. -/
theorem witness_YealmStart_format :
    let j : YealmJob := { job5 with cmd := command 2 2 (16 + 256) buf6 0 quadBase 0, yealm := quadBase, quad := true, n := 16 }
    let x : CourseOut :=
      { kind := .orig, job := 1, yealm := 5, pos := 0, k := 0, n := 64, g := 0, i := 0, rewrite := 0, selector := 0, addr := buf6 }
    let f := formatter { jobs := [j], chain := [seal8] }
    let late := placed f [(0, { awaiting := [x] })]
    (Orderly (placed f) ∧ (placed f).canonical = true ∧ (placed f).atBoundary = true ∧ (placed f).sealReady = none ∧
      (placed f).nextYealm = some j ∧ j.yealm = quadBase ∧ j.started = false ∧ (placed f).judged = true) ∧
    (Orderly late ∧ late.canonical = true ∧ late.atBoundary = true ∧ late.nextYealm = some j ∧ late.judged = false) := by
  unfold Orderly; decide +kernel

theorem witness_YealmStart_last :
    let w (f : Fmt) (c : SMap WChan) (n : Nat) := placed { fmt := f } c n
    let j : Fmt := { jobs := [job5] }
    (let s := w j [(0, { seg := segsPerWrap, gateOpen := true })] 0;
      Orderly s ∧ s.atBoundary = true ∧ s.segsLeft 170 = false ∧ s.drained = false) ∧
    (let s := w j [(0, { seg := segsPerWrap - 169 })] 366;
      Orderly s ∧ s.atBoundary = true ∧ s.segsLeft 170 = false ∧ s.drained = true ∧ s.wrc.wrap < 367) ∧
    (let s := w j [(0, { seg := segsPerWrap - 169 })] 367; Orderly s ∧ s.segsLeft 170 = false ∧ s.drained = true ∧ 367 ≤ s.wrc.wrap) := by
  unfold Orderly; decide +kernel

/-- A SEAL of yealms 1 to 8 that FMT holds, all of them passed. -/
def sealJob : SealJob := { cmd := command 2 3 0 buf6 0 0 0, record := record 0 }
def sealing (j : SealJob) : Fmt := { seals := [j], passed := [1, 2, 3, 4, 5, 6, 7, 8] }

theorem witness_Seals :
    let s := placed { fmt := sealing sealJob }
    let full := darkened (placed { fmt := { sealing sealJob with darkTable := [0xFF, 0, 0, 0, 0, 0, 0, 0] } })
    let v (p r : Nat) := placed { fmt := sealing { sealJob with begun := true, total := 64, judged := 64, passes := p, rewrite := r } }
    (Orderly s ∧ s.canonical = true ∧ s.sealReady = some sealJob ∧ s.atBoundary = true ∧ (s.selector).isSome = true ∧ s.segsLeft 2 = true ) ∧
    (Orderly full ∧ full.canonical = true ∧ full.sealReady = some sealJob ∧ full.atBoundary = true ∧ full.selector = none) ∧
    State.reset.sealReady = none ∧ (∀ j ∈ s.fmt.seals, j.begun = false) ∧
    (∀ p ∈ [31, 32], ∀ r ∈ [6, 7], Orderly (v p r) ∧ (v p r).canonical = true ∧ (v p r).segsLeft 2 = true ∧
      ((v p r).fmt.seals.find? fun j => j.begun && decide (j.judged = j.total)).isSome = true) ∧
    State.reset.fmt.chain = [] ∧ (placed { fmt := { chain := [seal8] } }).fmt.chain.getLast? = some seal8 := by
  unfold Orderly; decide +kernel

theorem witness_CourseVerify :
    let x : CourseOut :=
      { kind := .orig, job := 1, yealm := 5, pos := 0, k := 0, n := 64, g := 0, i := 0, rewrite := 0, selector := 0, addr := buf6 }
    let y : Copy := { chan := 0, hdr := x.header, pass := true, corr := 0, data := List.replicate 1024 0, order := 0 }
    let j (p n i : Nat) : YealmJob := { job5 with started := true, pending := p, tries := if n = 0 then [] else [(0, n)], inst := i }
    let s (p n i : Nat) := placed (formatter { jobs := [j p n i], copies := [y] }) [(0, { awaiting := [{ x with rewrite := i }] })]
    ((State.reset.wchan 0).awaiting = [] ∧ ∀ c ∈ State.reset.fmt.copies, c.chan ≠ 0) ∧
    (∀ p ∈ [1, 2], Orderly (s p 0 0) ∧ (s p 0 0).canonical = true ∧ ((s p 0 0).wchan 0).awaiting = [x] ∧ (s p 0 0).jobOf 1 = some (j p 0 0) ∧
      (j p 0 0).inst = x.rewrite ∧ (j p 0 0).passed.get (fun _ => false) x.key = false ∧
      ((s p 0 0).fmt.copies.find? fun y => y.chan == 0) = some y ∧ ((s p 0 0).copyStands x y).2 = true) ∧
    ((j 2 0 0).freeSlot 0 = some 0 ∧ (j 2 2 0).tries.get (fun _ => 0) x.key + 1 = 3 ∧ (j 2 2 7).inst = 7 ∧
      Orderly (s 2 2 7) ∧ (s 2 2 7).canonical = true) := by
  unfold Orderly; decide +kernel

/-- The record of a SEAL in a tile with no strong checks, and one to be laid down again at the end of a wrap. -/
theorem witness_Seals_record :
    let s := placed { fmt := sealing sealJob }
    let late := placed { fmt := sealing { sealJob with begun := true, total := 64, judged := 64, passes := 31 } }
      [(0, { seg := segsPerWrap, gateOpen := true })]
    (taOff (dA sealJob.cmd.desc) % 4096 + 1024 ≤ 4096 ∧ s.strong (tileAt s (dA sealJob.cmd.desc)) = false) ∧
      Orderly late ∧ late.canonical = true ∧ late.segsLeft 2 = false ∧ late.drained = false := by
  unfold Orderly; decide +kernel

/-- A write session that ended while a group it left was still to be written, resumed once it is. -/
theorem witness_Resume :
    let s : State := { wrc := { resume := [(7, 4)] } }
    Orderly s ∧ s.canonical = true ∧ s.clocked = true ∧ s.wrc.resume = [(7, 4)] ∧ s.drained = true ∧ s.hst.closed = [] ∧ s.fmt.jobs = [] ∧
      s.fmt.seals = [] ∧ State.reset.wrc.resume = [] ∧ ((State.reset.setFld F.PWR_STAT.STATE 2).clocked = false) := by
  unfold Orderly; decide +kernel

/-- Write channel 0 with one course to write on the wrap announced, batten lock on every channel below 32, the tape at 4 m/s and the
driver synchronised; the writer clock stands at 0 and the channel's latest batten was met then. -/
def gating (w : WChan) : State :=
  ({ wrc := { chans := [(0, w)], placed := true, announced := some 0, idleSent := 4096 }
     mot := { ports := [(5, 4)] } } : State).setFld F.WRC_LOCK_LO.LOCK 0xFFFFFFFF
/-- A blank course. -/
def blankCourse : CourseOut := { kind := .blank, job := 1, yealm := 5, pos := 0, k := 0, n := 64, g := 0, i := 0, rewrite := 0, selector := 0 }

theorem witness_Gates :
    let g := gating { queue := [blankCourse], anchors := [0] }
    let o (n : Nat) := gating { gateOpen := true, len := n }
    (State.reset.afeHeld = false ∧ (State.reset.wchan 0).queue = [] ∧ (State.reset.wchan 0).gateOpen = false) ∧
    (Orderly g ∧ g.canonical = true ∧ g.afeHeld = false ∧ (g.wchan 0).gateOpen = false ∧ (g.wchan 0).queue ≠ [] ∧
      g.mot.stopped = false ∧ g.wrc.announced = some g.wrc.wrap ∧ 4096 ≤ g.wrc.idleSent ∧ 4 / 5 ≤ ratAbs g.tapeSpeed ∧
      ratAbs g.tapeSpeed ≤ 8) ∧
    (∀ n ∈ [14592, 14593], Orderly (o n) ∧ (o n).canonical = true ∧ ((o n).wchan 0).gateOpen = true) := by
  unfold Orderly; decide +kernel

/-- The gate of such a channel with its links brought up to date: its room and what its segment holds; channel 0 in lock, out of lock,
under inhibit and in the dark group. -/
theorem witness_Gates_segment :
    let g := gating { queue := [blankCourse], anchors := [0] }
    let room (g : State) := (g.sendLinks.gatePoint (g.sendLinks.wchan 0) 0 (g.sendLinks.commandEnd (g.sendLinks.wchan 0) + 64)).2
    let fed (g : State) := fedSegment g.sendLinks (g.sendLinks.wchan 0)
    let dark := (g.setFld F.RDC_CFG.DARK_EN 1).setFld F.RDC_CFG.DARK_GRP 0
    14593 ≤ room g ∧ room g ≤ 14603 ∧ (fed g).1.battenLock 0 = true ∧ (fed g).1.flag F.WRC_STAT.INHIBIT = false ∧
      (fed g).1.darkGroup = none ∧ (fed g).2.any (fun x => x.1.kind != .unwritten) = true ∧
      (fed (g.setFld F.WRC_LOCK_LO.LOCK 0)).1.battenLock 0 = false ∧
      (fed (g.setFld F.WRC_STAT.INHIBIT 1)).1.flag F.WRC_STAT.INHIBIT = true ∧
      (fed dark).1.darkGroup = some 0 := by
  decide +kernel

theorem witness_Sideband :
    let q (tries : Nat) (l : List (Nat × Nat × Nat)) : State := { wrc := { sbQueue := (0, 1, tries) :: l } }
    let st (n : Nat) : State := { wrc := { statTries := if n = 0 then [] else [(0, n)] } }
    let good : List Byte := [0, 1, 25, 0, 0] ++ (leBytes 2 (crc16 [1, 25, 0, 0]).toNat).reverse
    ((State.reset.setFld F.WRC_STAT.SB_BUSY 1).flag F.WRC_STAT.SB_BUSY = true ∧ State.reset.flag F.WRC_STAT.SB_BUSY = false ∧
      State.reset.wrc.sbQueue = []) ∧
    (∀ n ∈ [0, 1, 2], Orderly (q n []) ∧ (q n []).canonical = true ∧ (q n []).afeHeld = false) ∧
    (good.length = 7 ∧ natAt good 0 1 = 0 ∧ (bytesAt good 5 2).reverse = leBytes 2 (crc16 (bytesAt good 1 4)).toNat ∧
      ([0] : List Byte).length ≠ 7) ∧
    (∀ n ∈ [1, 2], Orderly (st n) ∧ (st n).wrc.statTries.get (fun _ => 0) 0 = n) := by
  unfold Orderly; decide +kernel

theorem witness_Inhibit :
    let s : State := { wrc := { clearSamples := 64 } }
    let on := State.reset.setFld F.WRC_STAT.INHIBIT 1
    let job : State := { fmt := { sealing sealJob with jobs := [job5] } }
    (Orderly s ∧ s.canonical = true ∧ s.flag F.WRC_CTL.INH_SW = false ∧ s.wrc.shockLow = false ∧ s.wrc.accHigh = false ∧
      max 1 (s.fld F.WRC_INH_CTL.RESUME_CNT) ≤ s.wrc.clearSamples) ∧
    (State.reset.wrc.clearSamples < max 1 (State.reset.fld F.WRC_INH_CTL.RESUME_CNT)) ∧
    ((State.reset.setFld F.WRC_INH_CTL.SHOCK_EN 1).flag F.WRC_INH_CTL.SHOCK_EN = true ∧ State.reset.wrc.shockLow = false ∧
      State.reset.flag F.WRC_STAT.INHIBIT = false ∧ (State.reset.setFld F.WRC_CTL.AUTO_RESUME 0).flag F.WRC_CTL.AUTO_RESUME = false) ∧
    (on.canonical = true ∧ on.flag F.WRC_STAT.INHIBIT = true ∧ on.afeHeld = false) ∧ (Orderly job ∧ job.fmt.jobs ≠ []) := by
  unfold Orderly; decide +kernel

/-- Samples of a tone of an amplitude, and of the dibits of a number. -/
def waves (n : Nat) (a : Int) : List Int := (List.replicate n [a, -a]).flatten
def dibitSamples (n v : Nat) : List Int := (bitsOf n v).flatMap fun b => if b then [32, -32] else [-32, 32]
/-- The samples of a batten of a servo track and a 32-bit LPOS field, one a batten bit (R33): preamble, sync, track, LPOS, bursts A to D
and pad. -/
def batten (track field : Nat) : List Int :=
  waves 48 32 ++ (bitsOf 16 0xF0A6).map (fun b => if b then 32 else -32) ++ dibitSamples 15 (track.xor (track / 2)) ++
    dibitSamples 32 field ++ waves 32 16 ++ waves 32 16 ++ waves 32 24 ++ waves 32 8 ++ List.replicate 10 0
/-- The LPOS field of a batten, with its CRC. -/
def fieldLpos (l : Nat) : Nat := l * 256 + (crc8 (leBytes 3 l).reverse).toNat
/-- SRV's record of channel 0, that channel running, the tape at one ADC sample a bit, after a stretch whose first sample is the
14,999th: a guard of 24 bits, then these; the batten before it stood at the channel's first sample. -/
def servo (x : SrvChan) (l : List Int) (w : WChan := {}) : State :=
  reading {} { mot := { srv := [(0, { x with stretch := (waves 12 32 ++ l).reverse, stretchAt := 14998, ready := true })]
                        ports := [(5, 40000 / 3937)] }
               wrc := { chans := [(0, w)], clockRate := 1 } }
/-- What SRV reads of its stretch, at the phase and rate it acquires. -/
def batten0 (s : State) : Option (BattenIn × Rat × Rat) := s.readBatten 0 0 (s.acquire 0 0).1 (s.acquire 0 0).2

theorem witness_BattenDecode :
    let lost (n : Nat) := servo { hunt := false, misses := n, lpos := some 6999 } [] { anchors := [-96] }
    (State.reset.chanOn 0 = false ∧ (State.reset.srvChan 0).ready = false) ∧
    (∀ n ∈ [0, 1], Orderly (lost n) ∧ (lost n).canonical = true ∧ (lost n).chanOn 0 = true ∧ ((lost n).srvChan 0).ready = true ∧ batten0 (lost n) = none) ∧
    (Min.min 2 (((lost 0).srvChan 0).misses + 1) = 1 ∧ Min.min 2 (((lost 1).srvChan 0).misses + 1) = 2) := by
  unfold Orderly; decide +kernel

/-- Channel 0 with the stretch of a batten of the target track, LPOS 7,000, one cell after that of an LPOS. -/
def onTrack (l : Nat) : State :=
  servo { hunt := false, misses := 0, lpos := some l } (batten 80 (fieldLpos 7000)) { anchors := [-96], goodBattens := 1 }
/-- What it reads: its sync and start, its track, position and LPOS. -/
def readsWell (s : State) : Bool :=
  (batten0 s).any fun r => r.2 == (15118, 15022) && s.trackNumber r.1 80 == some 80 && s.positionOk 0 r.1 (some 80) &&
    decide ((nearest (s.battenPes r.1 80 80 0)).natAbs < 32768) && s.lposField r.1 == some 7000

theorem witness_BattenDecode_track :
    (∀ l ∈ [6999, 6000], Orderly (onTrack l) ∧ (onTrack l).canonical = true ∧ (onTrack l).chanOn 0 = true) ∧
      targetTrack 0 0 = 80 ∧ nextLpos 0 6999 = 7000 ∧ nextLpos 0 6000 ≠ 7000 ∧ ((onTrack 6000).srvChan 0).jump = none := by
  unfold Orderly; decide +kernel

theorem witness_BattenDecode_read : readsWell (onTrack 6999) = true := by decide +kernel

theorem witness_BattenDecode_jump : readsWell (onTrack 6000) = true := by decide +kernel

/-- A batten that hunt finds. -/
theorem witness_BattenDecode_hunt :
    let s := servo {} (batten 80 (fieldLpos 7000))
    s.canonical = true ∧ (batten0 s).map (fun r => r.2) = some (15118, 15022) := by decide +kernel

/-- A batten whose LPOS fails its CRC. -/
theorem witness_BattenDecode_noLpos :
    let s := servo { hunt := false, misses := 0, lpos := some 6999 } (batten 80 (fieldLpos 7000 + 1))
    s.canonical = true ∧ (s.wchan 0).anchors = [] ∧ (batten0 s).any (fun r => s.lposField r.1 == none) = true := by
  decide +kernel

/-- One that keeps the lock and sets the writer clock. -/
theorem witness_BattenDecode_clock :
    let s := onTrack 6999
    (s.wchan 0).anchors ≠ [] ∧ ratAbs (s.bitsAt 15022 - ((s.wchan 0).anchors.getD 0 0 + cellBits)) ≤ 2 ∧
      (s.wchan 0).anchorTime < 15022 ∧ (s.lockBatten 0 15022).battenLock 0 = true := by decide +kernel

theorem witness_HeadPosition :
    let s (p : Rat) : State := { mot := { srv := [(0, { fresh := true, pes := p })] } }
    let lost (n : Nat) : State := { wrc := { posLost := n } }
    (Orderly (s 5) ∧ (s 5).canonical = true ∧ (s 5).headSample 0 = some 5 ∧ (nearest 5).natAbs < 32768 ∧
      (nearest 5).natAbs ≤ max 1 ((s 5).fld F.WRC_INH_CTL.PES_TH)) ∧
    (Orderly (s 9999) ∧ (s 9999).headSample 0 = some 9999 ∧ max 1 ((s 9999).fld F.WRC_INH_CTL.PES_TH) < (nearest 9999).natAbs) ∧
    (Orderly (lost 9) ∧ (lost 9).headSample 0 = none ∧ max 1 ((lost 15).fld F.WRC_INH_CTL.PES_CNT) ≤ 15 + 1 ∧
      (lost 15).flag F.WRC_STAT.INHIBIT = false ∧ (s 5).headSample 7 = none) ∧
    State.reset.fld F.MOT_TENS0.T_MIN ≤ State.reset.fld F.MOT_TENS1.T_MAX := by
  unfold Orderly; decide +kernel

theorem witness_Accelerometer :
    let run := State.reset.setFld F.MOT_CTL.RUN 1
    let list := { run with aon := run.aon.store (fun _ => 0) 0x1800 [3, 0, 0, 1] }
    State.reset.flag F.MOT_CTL.RUN = false ∧ (Orderly run ∧ run.canonical = true ∧ run.flag F.MOT_CTL.RUN = true ∧
      (runList run.sensorList true [] {}).spiFail = false) ∧
    (Orderly list ∧ list.canonical = true ∧ list.flag F.MOT_CTL.RUN = true ∧ (runList list.sensorList true [] {}).spiFail = true) ∧
    (run.setFld F.WRC_INH_CTL.ACC_EN 1).flag F.WRC_INH_CTL.ACC_EN = true := by
  unfold Orderly; decide +kernel

theorem witness_MotionEngineEffects :
    let late (n : Nat) : State := { mot := { overrunDue := true, overruns := n } }
    let run := (State.reset.setFld F.MOT_CTL.RUN 1).setFld F.MOT_CTL.LINK_EN 1
    (State.reset.mot.overrunDue = false ∧ State.reset.flag F.MOT_CTL.LINK_EN = false ∧ run.flag F.MOT_CTL.LINK_EN = true ∧
      run.flag F.MOT_CTL.RUN = true ∧ Orderly run ∧ run.canonical = true) ∧
    (∀ n ∈ [1, 2], Orderly (late n) ∧ (late n).canonical = true ∧ (late n).mot.overrunDue = true) := by
  unfold Orderly; decide +kernel

theorem witness_Motion_switches :
    let stuck := State.reset.setReg 0xF02000 0x081E0000
    let moving : State := { mot := { inDataZone := true, live := [(5, 1)] } }
    (State.reset.afeHeld = false ∧ (State.reset.step 0).op = 0 ∧ stuck.canonical = true ∧ Orderly stuck ∧
      stuck.badStep (stuck.step 0) = true ∧ (stuck.step 0).op ≠ 0) ∧
    ((State.reset.setFld F.MOT_LOOP.STATE 1).fld F.MOT_LOOP.STATE ≠ 0 ∧ State.reset.fld F.MOT_LOOP.STATE = 0) ∧
    (((State.reset.setFld F.MOT_LOOP.CLOSE 1).setFld F.WRC_STAT.WRITING 1).mayOpen 0 = false) ∧
    (Orderly moving ∧ moving.canonical = true ∧ 1 / 1000 ≤ ratAbs (moving.livePort 5) ∧ State.reset.mot.inDataZone = false ∧
      367 < (368 : BitVec 9).toNat) := by
  unfold Orderly; decide +kernel

/-- A returned frame of type `t` with a value, as its line carries it (R206). -/
def returned (t value seq : Nat) : W32 :=
  let hi := t * 2 ^ 20 + value * 2 ^ 4 + seq
  BitVec.ofNat 32 (hi * 256 + (crc8 (leBytes 3 hi).reverse).toNat)

theorem witness_MotionFrames :
    (∀ t ∈ [0x9, 0xC, 0x8], crc8 (leBytes 3 ((returned t 8 0).toNat / 256)).reverse = BitVec.ofNat 8 (returned t 8 0).toNat ∧
      (returned t 8 0).toNat / 256 % 16 = State.reset.mot.tick % 16 ∧ (returned t 8 0).toNat / 2 ^ 28 = t) ∧
    diPort 0x9 = some 13 ∧ diPort 0x8 = none ∧
    ¬(crc8 (leBytes 3 (1 / 256)).reverse = BitVec.ofNat 8 1) := by decide +kernel

/-- The speed that pace asks for when it writes, before its limits (R211). -/
def asked (x : State) : Rat :=
  (((x.mot.ryNow :: x.mot.ry).take 32).foldl (· + ·) 0 : Nat) / (32 / 1000 : Rat) * (6397 / 100000) +
    (x.fld F.PACE_LAW.KP : Rat) * (x.paceFill - 50) / 1000 + x.mot.integ

theorem witness_PaceTargetsAndStops :
    let s (m : Mot) := (({ mot := m } : State).setFld F.PACE_CTL.EN 1)
    let rd (x : State) := x.setFld F.PACE_CTL.MODE 1
    State.reset.flag F.PACE_CTL.EN = false ∧
    (Orderly (s {}) ∧ (s {}).canonical = true ∧ (s {}).flag F.PACE_CTL.EN = true ∧ asked (s {}) < 8 / 10 ∧
      (s {}).mot.stopPending = false ∧ (s {}).mot.stopped = false) ∧
    (Max.max 1 ((rd (s { below := 63 })).fld F.PACE_LAW.STOP_N) ≤ 63 + 1 ∧ (rd (s { below := 63 })).flag F.PACE_CTL.MODE = true ∧
      (rd (s { below := 63 })).canonical = true) ∧
    ((placed (s {})).wrc.placed = true ∧ (placed (s {})).sealWaits = false ∧ Orderly (placed (s {}))) ∧
    ((s { stopped := true }).mot.stopped = true ∧ (s { stopPending := true }).mot.stopPending = true ∧
      (s { stopPending := true }).tailVerified = true ∧
      ({ s { stopPending := true } with wrc := { chans := [(0, { gateOpen := true })] } } : State).tailVerified = false) ∧
    ((rd (s { stopped := true, waiting := true })).mayResume = true ∧
      (rd (s { stopped := true, waiting := true, fill := 25 })).mayResume = false ∧ (s { stopped := true }).mot.waiting = false) := by
  unfold Orderly
  refine ⟨?_, ?_, ?_, ?_, ?_, ?_⟩ <;> decide +kernel

/-- Pace asks for more than 0.80 m/s: below the limits with 10 m of the wrap left, and not at its end. -/
theorem witness_Pace_limits :
    let s (l : Nat) : State :=
      (({ mot := { ryNow := 2, srv := [(0, { lpos := some l })] } } : State).setFld F.PACE_CTL.EN 1).setFld F.RDC_CFG.MODE 1
    (∀ l ∈ [3347458, 3373500], Orderly (s l) ∧ (s l).canonical = true ∧ 8 / 10 < asked (s l)) ∧
      belowLimit (s 3347458).paceLimits (asked (s 3347458)) = true ∧ belowLimit (s 3373500).paceLimits (asked (s 3373500)) = false := by
  unfold Orderly; decide +kernel

/-- What a tick turns on besides: a channel in lock, links behind the writer clock, an overrun due; and a tape at rest outside the data
zones, which may turn around. -/
theorem witness_Motion_tick :
    let s : State := ({ mot := { srv := [(0, { cell := 15000 })], wrapReq := some 3 }, wrc := { clockBits := 64 } } : State).setFld F.WRC_LOCK_LO.LOCK 1
    (Orderly s ∧ s.canonical = true ∧ s.clocked = true ∧ s.mot.overrunDue = false ∧ s.lockedCells ≠ [] ∧
      s.wrc.linkBits + 8 ≤ s.nowBits ∧ State.reset.lockedCells = [] ∧ State.reset.nowBits < State.reset.wrc.linkBits + 8) ∧
    (State.reset.mot.inDataZone = false ∧ State.reset.livePort 6 = 0 ∧ ratAbs (State.reset.livePort 5) < 1 / 1000 ∧
      ({ mot := { live := [(6, 1)] } } : State).livePort 6 ≠ 0) := by
  unfold Orderly; decide +kernel
end Sys2Proof.Tests
end

