-- ==== Sys2Proof/Proofs/QueueDisable.lean ====
section
/-!
PROOF. A queue's enable and disable (R268, R499): both empty the queue, and a disable's queue event (R273) reaches the cores alone.
-/
namespace Sys2Proof.Machine

/-! ## Reads after writes -/

theorem State.canonical_queues {s : State} (h : s.canonical = true) : SMap.wf (fun _ => ({} : Queue)) s.queues = true := by
  obtain ⟨-, -, -, -, -, -, -, -, -, hq, -⟩ := s.canonical_iff.1 h
  exact hq

/-- A one-bit field reads what it was set to. -/
theorem State.flag_setFlag_self (s : State) (f : Field) (b : Bool) (i : Nat) (h : regsWf s.regs = true)
    (hw : f.width = 1) (hf : f.lo < 32) : (s.setFlag f b i).flag f i = b := by
  have hfld : (s.setFlag f b i).fld f i = b.toNat % 2 ^ f.width := s.fld_setFld_self f _ i h (by omega)
  rw [State.flag, hfld, hw]
  cases b <;> rfl

@[simp] theorem State.queue_setFlag (s : State) (f : Field) (b : Bool) (i q : Nat) : (s.setFlag f b i).queue q = s.queue q := rfl

/-- Equal pointers are an empty queue (R270). -/
theorem State.qCount_of_wp_eq_rp {s : State} {q : Nat} (h : (s.queue q).wp = (s.queue q).rp) : s.qCount q = 0 := by
  simp [State.qCount, h]

/-! ## What touches the cores alone -/

/-- A run of updates that touch `cores` alone touches `cores` alone. -/
theorem State.each_touches_cores {α : Type} {f : State → α → State} (hf : ∀ s a, f s a = { s with cores := (f s a).cores })
    (s : State) (l : List α) : s.each l f = { s with cores := (s.each l f).cores } := by
  induction l generalizing s with
  | nil => rfl
  | cons a l ih =>
    calc (f s a).each l f = { f s a with cores := ((f s a).each l f).cores } := ih _
      _ = { s with cores := ((f s a).each l f).cores } := by rw [hf s a]

/-- `queueEvent` touches `cores` alone. -/
theorem State.queueEvent_touches_cores (s : State) (q : Nat) : s.queueEvent q = { s with cores := (s.queueEvent q).cores } := by
  refine State.each_touches_cores (fun s n => ?_) s _
  dsimp only
  split <;> rfl

/-! ## Disable and enable -/

/-- A disable empties the queue and clears EN; the queue event of an ABOVE that clears touches `cores` alone. -/
theorem State.queueOff_touches_cores (s : State) (q : Nat) :
    s.queueOff q = { (s.setQueue q {}).setFlag F.QUE_CFG.EN false q with cores := (s.queueOff q).cores } := by
  by_cases ha : (s.queue q).above = true
  · simp only [State.queueOff, ha, if_true]
    exact State.queueEvent_touches_cores _ q
  · simp only [State.queueOff, ha]
    rfl

theorem State.queue_queueOff {s : State} (h : s.canonical = true) (q r : Nat) :
    (s.queueOff q).queue r = if r = q then {} else s.queue r := by
  rw [State.queueOff_touches_cores]
  exact s.queue_setQueue q r {} (State.canonical_queues h)

theorem State.flag_en_queueOff {s : State} (h : s.canonical = true) (q : Nat) :
    (s.queueOff q).flag F.QUE_CFG.EN q = false := by
  rw [State.queueOff_touches_cores]
  exact (s.setQueue q {}).flag_setFlag_self F.QUE_CFG.EN false q
    (State.canonical_regs (canonical_setQueue s q {} h)) rfl (by decide)

theorem State.queueOn_of_qLegal {s : State} {q : Nat} (he : s.flag F.QUE_CFG.EN q = false) (hl : s.qLegal q = true) :
    s.queueOn q = (s.setQueue q {}).setFlag F.QUE_CFG.EN true q := by
  simp [State.queueOn, State.qEnabled, he, hl]

/-- In RUN an access of the host is done at once. -/
theorem State.hostRow_of_inRun {s : State} (h : s.inRun = true) (i : Instr) : s.hostRow i = s.hostEffect i := by
  rw [State.hostRow, if_pos h]

theorem exec_queueDisable {s : State} (h : s.inRun = true) (q : QueueId) : exec (.queueDisable q) s = .next (s.queueOff q) :=
  congrArg Host.Outcome.next (State.hostRow_of_inRun h (.queueDisable q))

theorem exec_queueEnable {s : State} (h : s.inRun = true) (q : QueueId) : exec (.queueEnable q) s = .next (s.queueOn q) :=
  congrArg Host.Outcome.next (State.hostRow_of_inRun h (.queueEnable q))

/-- An allowed enable sets EN and finds the queue empty. -/
theorem exec_queueEnable_of_qLegal {s : State} {q : QueueId} (hc : s.canonical = true) (hr : s.inRun = true)
    (he : s.flag F.QUE_CFG.EN q = false) (hl : s.qLegal q = true) :
    ∃ t, exec (.queueEnable q) s = .next t ∧ t.flag F.QUE_CFG.EN q = true ∧ t.qCount q = 0 := by
  refine ⟨_, exec_queueEnable hr q, ?_, ?_⟩ <;> rw [State.queueOn_of_qLegal he hl]
  · exact (s.setQueue q {}).flag_setFlag_self F.QUE_CFG.EN true q
      (State.canonical_regs (canonical_setQueue s q {} hc)) rfl (by decide)
  · apply State.qCount_of_wp_eq_rp
    simp [State.queue_setQueue s q q {} (State.canonical_queues hc)]

/-- Settles O27: a disable writes the queue of reset, whose pointers are 0 in both copies, and its queue event reaches no queue. -/
theorem queueEmptied : Obligations.QueueEmptied := by
  intro q s hc hr
  have hq : (s.queueOff q).queue q = {} := by rw [State.queue_queueOff hc, if_pos rfl]
  refine ⟨s.queueOff q, exec_queueDisable hr q, State.flag_en_queueOff hc q, congrArg Queue.wp hq, congrArg Queue.rp hq,
    congrArg Queue.wp2 hq, congrArg Queue.rp2 hq, congrArg Queue.above hq, State.qCount_of_wp_eq_rp (by rw [hq]), ?_, ?_⟩
  · intro r hne
    rw [State.queue_queueOff hc, if_neg hne]
  · intro u huc hur _ hue hul
    exact exec_queueEnable_of_qLegal huc hur hue hul

end Sys2Proof.Machine
end

