-- ==== Sys2Proof/Proofs/BranchCond.lean ====
section
/-!
PROOF. The conditional branch of a stream core (R291): its table of conditions, and what BC does on a core that executes.
-/
/-! ## What a core that executes does with each effect -/

namespace Sys2Proof.Claims
open Sys2Proof.Machine

variable {s : State} {n : CoreId} {f : Core → Effect}

/-- An effect that completes advances the pc. -/
theorem Runs.laruf_done (h : Runs s n) {t : State} (hf : f (s.core n) = .done t) :
    laruf n s f = .next (t.setCore n (t.core n).advance) := by
  obtain ⟨-, hclock, hrun, hstall, hpc, hword⟩ := h
  rw [laruf_runs hclock hrun hstall hpc hword, hf]

/-- A taken branch goes to its destination. -/
theorem Runs.laruf_goto (h : Runs s n) {t : State} {d : Nat} (hf : f (s.core n) = .goto t d) :
    laruf n s f = .next (t.setCore n ((t.core n).jump d)) := by
  obtain ⟨-, hclock, hrun, hstall, hpc, hword⟩ := h
  rw [laruf_runs hclock hrun hstall hpc hword, hf]

/-- A raised exception is taken from the state the instruction found (R308). -/
theorem Runs.laruf_raise (h : Runs s n) {code : Nat} {a : Option W64} {st : W16} (hf : f (s.core n) = .raise code a st) :
    laruf n s f = .next (s.exception n code a st) := by
  obtain ⟨-, hclock, hrun, hstall, hpc, hword⟩ := h
  rw [laruf_runs hclock hrun hstall hpc hword, hf]

end Sys2Proof.Claims

namespace Sys2Proof.Machine
open Sys2Proof.Claims

/-! ## The condition codes -/

/-- Codes 0 to 11 have the conditions of the table of R291. -/
theorem Core.cond_of_lt (c : Core) {code : Nat} (h : code < 12) :
    c.cond code = some (condition code c.fz c.fn c.fc c.fv c.fq) := by
  match code with
  | 0 | 1 | 2 | 3 | 4 | 5 | 6 | 7 | 8 | 9 | 10 | 11 => rfl
  | k + 12 => omega

theorem Core.cond_of_ge (c : Core) {code : Nat} (h : 12 ≤ code) : c.cond code = none := by
  obtain ⟨k, rfl⟩ := Nat.exists_eq_add_of_le' h
  rfl

/-! ## BC -/

section
variable {s : State} {n : CoreId} {code : Rf} {off : BitVec 20}

theorem exec_bc_of_cond_none (h : Runs s n) (hc : (s.core n).cond code.toNat = none) :
    exec (.bc n code false off) s = .next (s.exception n Exc.ILLEGAL none 0) := by
  change execBc n code false off s = _
  exact h.laruf_raise (by simp [hc, illegal])

/-- A condition that reads flags under a set FM raises POISON (R282). -/
theorem exec_bc_of_fm (h : Runs s n) {b : Bool} (hc : (s.core n).cond code.toNat = some b) (hlt : code.toNat < 10)
    (hfm : (s.core n).fm = true) :
    exec (.bc n code false off) s = .next (s.exception n Exc.POISON none 0) := by
  change execBc n code false off s = _
  exact h.laruf_raise (by simp [hc, hlt, hfm, poisoned])

/-- A condition that may be read decides between the branch and the next instruction. -/
theorem exec_bc_of_cond (h : Runs s n) {b : Bool} (hc : (s.core n).cond code.toNat = some b)
    (hfm : code.toNat < 10 → (s.core n).fm = false) :
    exec (.bc n code false off) s =
      if b then .next (s.setCore n ((s.core n).jump (branchTarget (s.core n).pc off))) else done s n (s.core n) := by
  have hread : ¬(code.toNat < 10 ∧ (s.core n).fm = true) := fun ⟨hlt, hset⟩ => by simp [hfm hlt] at hset
  change execBc n code false off s = _
  cases b with
  | true => exact h.laruf_goto (by simp [hc, hread])
  | false => exact h.laruf_done (by simp [hc, hread])

end

/-- Settles O6: the model's condition codes are the table of R291 below 12 and undefined from there, and FM is read below 10 only. -/
theorem branchConditions : Obligations.BranchConditions := by
  intro n code off s h
  refine ⟨fun hlt hfm => ?_, fun hlt hfm => ?_, fun hge => ?_⟩
  · exact exec_bc_of_cond h ((s.core n).cond_of_lt hlt) hfm
  · exact exec_bc_of_fm h ((s.core n).cond_of_lt (by omega)) hlt hfm
  · exact exec_bc_of_cond_none h ((s.core n).cond_of_ge hge)

end Sys2Proof.Machine
end
